-- ==== Sys2Proof/Word.lean ====
section
/-! DEFINITION. The value types of rule R9 (00_scope.md): `bit`, `u4`, `u6`, and the byte of rule R52 (20_memory.md). -/

namespace Sys2Proof

/-- `bit` = 0..1 (R9): `true` is 1. -/
abbrev Bit := Bool

/-- `u4` = 0..15 (R9): a payload, a command type, a data value. -/
abbrev U4 := BitVec 4

/-- `u6` = 0..63 (R9): a channel value. -/
abbrev U6 := BitVec 6

/-- The 2-bit code of the error state (R77). -/
abbrev U2 := BitVec 2

/-- An 8-bit container (R52). -/
abbrev Byte := BitVec 8

end Sys2Proof
end

