-- ==== Sys2Proof/Config.lean ====
section
/-! DEFINITION. The parameters of rule R7 (00_scope.md). A parameter with a value is a definition; a parameter marked OPEN is a
field of `Params`, which every operation that needs it takes as an argument, and whose value in the reset state is an
uninterpreted constant. -/

namespace Sys2Proof

/-- `N_LINKS` (R7, decision D3). UNVERIFIED literal, log 19. -/
abbrev nLinks : Nat := 6

/-- `QUEUE_CAP`, written `CAP` (R7, decision D4). UNVERIFIED literal, log 19. -/
abbrev queueCap : Nat := 4

/-- `Link` = 0..`N_LINKS`-1 (R9). The type has exactly `N_LINKS` values (R53(a), decision D16). -/
abbrev Link := Fin nLinks

/-- `Slot` = 0..`CAP`-1 (R9). -/
abbrev Slot := Fin queueCap

/-- `Cursor` = 0..`CAP` (R9, R108: a model should use this type). -/
abbrev Cursor := Fin (queueCap + 1)

/-- The links in the ascending order of rules R133 and R156. -/
def allLinks : List Link := [0, 1, 2, 3, 4, 5]

/-- `TOGGLE_COMMAND` (R7). -/
abbrev toggleCommand : Bit := true

/-- `TOGGLE_DATA` (R7). -/
abbrev toggleData : Bit := false

/-- `CMD_UPDATE_STATE` (R7, R74). DESIGN CHOICE of the spec (D5), log 20. -/
abbrev cmdUpdateState : U4 := 0x1#4

/-- The parameters that rule R7 leaves OPEN or lets be set: constants of the machine, which no operation writes. -/
structure Params where
  /-- `AGE_W`, OPEN (D7). -/
  ageW : Nat
  /-- `EXPIRE_LIMIT`, OPEN (D7). -/
  expireLimit : Nat
  /-- `OOS_COMMIT`, default `false`, may be `true` (D8). -/
  oosCommit : Bool
deriving DecidableEq, Repr

/-- `AGE_MAX` = 2^`AGE_W` - 1 (R7). -/
def Params.ageMax (p : Params) : Nat := 2 ^ p.ageW - 1

/-- The constraints of R7: `AGE_W` >= 1 and 1 <= `EXPIRE_LIMIT` <= `AGE_MAX`. -/
abbrev Params.wf (p : Params) : Prop := 1 ≤ p.ageW ∧ 1 ≤ p.expireLimit ∧ p.expireLimit ≤ p.ageMax

/-- Uninterpreted: one less than the implementation's `AGE_W`. DESIGN CHOICE, log 8. -/
opaque Config.ageWidthLessOne : Nat

/-- Uninterpreted: fixes the implementation's `EXPIRE_LIMIT` within its range. DESIGN CHOICE, log 8. -/
opaque Config.expireSeed : Nat

/-- Uninterpreted: the implementation's `OOS_COMMIT`. DESIGN CHOICE, log 9. -/
opaque Config.oosCommit : Bool

/-- The implementation's parameters. Every triple that R7 allows is reached by some value of the uninterpreted constants, and
no other (`Machine.config_params_wf`, `Laws.config_params_cover`). -/
def Config.params : Params where
  ageW := Config.ageWidthLessOne + 1
  expireLimit := Config.expireSeed % (2 ^ (Config.ageWidthLessOne + 1) - 1) + 1
  oosCommit := Config.oosCommit

end Sys2Proof
end

