-- ==== Sys2Proof/Machine/Codec.lean ====
section
/-! DEFINITION. The Channel Codec (40_codec.md): the only place where the bit positions of a channel value appear (R93). -/

namespace Sys2Proof.Machine

/-- `ENCODE` (R90): `{ack, toggle, payload}`, `ack` most significant. -/
def channelEncode (ack toggle : Bit) (payload : U4) : U6 :=
  BitVec.ofBool ack ++ BitVec.ofBool toggle ++ payload

/-- `v.ack` = `v[5]` (R70). -/
def ackOf (v : U6) : Bit := v.getLsbD 5

/-- `v.toggle` = `v[4]` (R70). -/
def toggleOf (v : U6) : Bit := v.getLsbD 4

/-- `v.payload` = `v[3:0]` (R70). -/
def payloadOf (v : U6) : U4 := v.extractLsb' 0 4

/-- `DECODE` (R91). -/
def channelDecode (v : U6) : Bit × Bit × U4 := (ackOf v, toggleOf v, payloadOf v)

/-- `o.ack <- t` (R92). -/
def withAck (o : U6) (t : Bit) : U6 := channelEncode t (toggleOf o) (payloadOf o)

/-- `o.toggle <- t` (R92). -/
def withToggle (o : U6) (t : Bit) : U6 := channelEncode (ackOf o) t (payloadOf o)

/-- `o.payload <- p` (R92). -/
def withPayload (o : U6) (p : U4) : U6 := channelEncode (ackOf o) (toggleOf o) p

/-- The two kinds of half-message (R72). -/
inductive HalfKind where
  | command | data
deriving DecidableEq, Repr

/-- The kind of the half a channel value carries: the toggle bit alone tells (R72, R73). -/
def halfKind (v : U6) : HalfKind :=
  if toggleOf v = toggleCommand then .command else .data

end Sys2Proof.Machine
end

