-- ==== Sys2Proof/Syntax.lean ====
section
/-! DEFINITION. The operations: one constructor of `Instr` per row of spec/opcode_table.json, with the operands the row and its
rule give it; and `Request`, the form in which an operation reaches the block. -/

namespace Sys2Proof

/-- The block's operations (R2) and the codes the table lists (R78).

The rows CHANNEL6, CMDTYPE4 and ERRCODE2 hold the bits of a value and not the link it concerns: the link (which wire the value is
on, R70, R35) is an operand here, and so is the data value on which a command type is dispatched (R123). -/
inductive Instr where
  /-- `HALF.CMD` (R72, R122, R126): the channel value `a1cccc` freshly received on link `i`. -/
  | halfCmd (i : Link) (a : Bit) (c : U4)
  /-- `HALF.DATA` (R72, R123, R128): the channel value `a0dddd` freshly received on link `i`. -/
  | halfData (i : Link) (a : Bit) (d : U4)
  /-- `CT.0` (R74, R75): data value `d` dispatched on link `i` under command type 0. The next fifteen likewise. -/
  | ct0 (i : Link) (d : U4)
  /-- `CT.UPDATE_STATE` (R74, R123). -/
  | ctUpdateState (i : Link) (d : U4)
  /-- `CT.2` (R74, R75). -/
  | ct2 (i : Link) (d : U4)
  /-- `CT.3` (R74, R75). -/
  | ct3 (i : Link) (d : U4)
  /-- `CT.4` (R74, R75). -/
  | ct4 (i : Link) (d : U4)
  /-- `CT.5` (R74, R75). -/
  | ct5 (i : Link) (d : U4)
  /-- `CT.6` (R74, R75). -/
  | ct6 (i : Link) (d : U4)
  /-- `CT.7` (R74, R75). -/
  | ct7 (i : Link) (d : U4)
  /-- `CT.8` (R74, R75). -/
  | ct8 (i : Link) (d : U4)
  /-- `CT.9` (R74, R75). -/
  | ct9 (i : Link) (d : U4)
  /-- `CT.A` (R74, R75). -/
  | ctA (i : Link) (d : U4)
  /-- `CT.B` (R74, R75). -/
  | ctB (i : Link) (d : U4)
  /-- `CT.C` (R74, R75). -/
  | ctC (i : Link) (d : U4)
  /-- `CT.D` (R74, R75). -/
  | ctD (i : Link) (d : U4)
  /-- `CT.E` (R74, R75). -/
  | ctE (i : Link) (d : U4)
  /-- `CT.F` (R74, R75). -/
  | ctF (i : Link) (d : U4)
  /-- `ERR.NONE` (R77): code 0 on `err_o[i]`. -/
  | errNone (i : Link)
  /-- `ERR.OVERRUN` (R77): code 1 on `err_o[i]`. -/
  | errOverrun (i : Link)
  /-- `ERR.OUT_OF_SYNC` (R77): code 2 on `err_o[i]`. -/
  | errOutOfSync (i : Link)
  /-- `ENCODE` (R90). -/
  | encode (ack toggle : Bit) (payload : U4)
  /-- `DECODE` (R91). -/
  | decode (v : U6)
  /-- `ENQ` (R100). -/
  | enq (i : Link) (cmd data : U4)
  /-- `QHEAD` (R103). -/
  | qhead (i : Link)
  /-- `DEQ` (R104, R105). -/
  | deq (i : Link)
  /-- `RXPHASE` (R121): `o` the working copy, `v` the sampled value. -/
  | rxphase (i : Link) (o v : U6)
  /-- `TXPHASE` (R125): `o` the working copy, `v` the sampled value. -/
  | txphase (i : Link) (o v : U6)
  /-- `LSTEP` (R130): `v` is `in_value[i]`, `fresh` is `in_fresh[i]`. -/
  | lstep (i : Link) (v : U6) (fresh : Bit)
  /-- `CYCLE` (R133). -/
  | cycle (vs : Vector U6 nLinks) (fs : Vector Bit nLinks)
  /-- `AGEUPD` (R150). -/
  | ageupd (i : Link) (fresh : Bit)
  /-- `STALE` (R152). -/
  | stale (i : Link)
  /-- `LRST` (R154). -/
  | lrst (i : Link)
  /-- `POR` (R156). -/
  | por
  /-- `RDSTATE` (R158). -/
  | rdstate (i : Link)
  /-- `RDERR` (R159). -/
  | rderr (i : Link)
  /-- `RDOUT` (R160). -/
  | rdout (i : Link)
  /-- `RDSTALE` (R161). -/
  | rdstale (i : Link)
  /-- `RESETALL` (R80). -/
  | resetall
  /-- `SEND` (R80). -/
  | send (i : Link) (data : U4)
deriving DecidableEq, Repr

/-- The operations that have no bits (R78: formats HOST, CYCLE, INTERNAL, PURE, PSEUDO) and are issued as calls. -/
inductive OpName where
  | encode | decode | enq | qhead | deq | rxphase | txphase | lstep | cycle | ageupd | stale
  | lrst | por | rdstate | rderr | rdout | rdstale | resetall | send
deriving DecidableEq, Repr

/-- How a request reaches the block (R78): as a value on a link's wire, as a code of one of the two code tables, or as a call
(a strobe of R35, a call of R182). -/
inductive Port where
  | wire
  | cmdType
  | errCode
  | call (op : OpName)
deriving DecidableEq, Repr

/-- What the surroundings issue: a port, the link it is issued for, and the operands, each in an 8-bit container (R52). The
link number is the platform's, so it may name no link (R53(a)). For the operations without a link operand it is not read.
DESIGN CHOICE, log 2. -/
structure Request where
  port : Port
  link : Nat
  bytes : List Byte
deriving DecidableEq, Repr

/-- Whether the operation is one the block performs inside `LSTEP` and no agent of R56 issues: the INTERNAL ones (R78), and the arms
of the dispatch that `RXPHASE` makes of a data half (R123), which are the rows of the command types. -/
def Instr.isInternal : Instr → Bool
  | .qhead _ | .deq _ | .rxphase .. | .txphase .. | .ageupd .. | .stale _ | .ct0 .. | .ctUpdateState .. | .ct2 .. | .ct3 ..
  | .ct4 .. | .ct5 .. | .ct6 .. | .ct7 .. | .ct8 .. | .ct9 .. | .ctA .. | .ctB .. | .ctC .. | .ctD .. | .ctE .. | .ctF .. => true
  | .halfCmd .. | .halfData .. | .errNone _ | .errOverrun _ | .errOutOfSync _ | .encode .. | .decode _ | .enq .. | .lstep ..
  | .cycle .. | .lrst _ | .por | .rdstate _ | .rderr _ | .rdout _ | .rdstale _ | .resetall | .send .. => false

end Sys2Proof
end

