-- ==== Sys2Proof/Machine/Operands.lean ====
section
/-! DEFINITION. The operand forms: fields of an 8-bit container. An over-wide operand keeps its low bits (R71, R90, D21); a value
put into a container has zeros above it (R52). -/

namespace Sys2Proof.Machine

/-- `trunc_1` (R10, R71). -/
def trunc1 (b : Byte) : Bit := b.getLsbD 0

/-- `trunc_2` (R10, R77). -/
def trunc2 (b : Byte) : U2 := b.setWidth 2

/-- `trunc_4` (R10, R71). -/
def trunc4 (b : Byte) : U4 := b.setWidth 4

/-- `trunc_6` (R10, R52): bits 7:6 of the container are discarded. -/
def trunc6 (b : Byte) : U6 := b.setWidth 6

/-- A bit in a container, zeros above it. -/
def byteOfBit (b : Bit) : Byte := (BitVec.ofBool b).setWidth 8

/-- An error code in a container, zeros above it. -/
def byteOfU2 (v : U2) : Byte := v.setWidth 8

/-- A 4-bit value in a container, zeros above it. -/
def byteOfU4 (v : U4) : Byte := v.setWidth 8

/-- A channel value in a container: bits 5:0, and bits 7:6 are 0 (R52). -/
def byteOfU6 (v : U6) : Byte := v.setWidth 8

end Sys2Proof.Machine
end

