-- ==== Sys2Proof/Machine/State.lean ====
section
/-! DEFINITION. The architectural state (10_state.md) as plain data, the reasons a step can stop, and the state after reset. -/

namespace Sys2Proof.Machine

/-- The error state `Err` (R9, R28): the block's only flags. -/
inductive Err where
  | none
  | overrun
  | outOfSync
deriving DecidableEq, Repr

/-- A queue entry (R25, R76): `cmd: u4`, `data: u4`. -/
@[ext]
structure Entry where
  cmd : U4
  data : U4
deriving DecidableEq, Repr

/-- The state of one link (R20). There is no state of the block that is not per-link. -/
@[ext]
structure LinkState where
  /-- `out[i]`, the outbound value (R21): at once a register and the value presented to the neighbour. -/
  out : U6
  /-- `last_cmd[i]`, the last received command (R22). -/
  lastCmd : U4
  /-- `rx_state[i]`, the received application state (R23). -/
  rxState : U4
  /-- `q[i][k]`, the outbound queue's slots, valid or not (R25). -/
  q : Vector Entry queueCap
  /-- `cursor[i]`, the insertion cursor (R26), of the type 0..`CAP` (R108). -/
  cursor : Cursor
  /-- `err[i]`, the error state (R28). -/
  err : Err
  /-- `age[i]`, the age counter (R30). Its range 0..`AGE_MAX` is an invariant, since `AGE_W` is OPEN (log 12). -/
  age : Nat
deriving DecidableEq, Repr

/-- What an operation returns (R90, R91, R100, R103, R121, R125, R152, R158 to R161). -/
inductive Result where
  /-- The operation returns nothing (R104, R130, R133, R150, R154, R156). -/
  | nothing
  /-- A truth value: `ok` of `ENQ`, the result of `STALE`, `RDSTALE` and of the comparison with an error code. -/
  | truth (b : Bool)
  /-- A 4-bit value (`RDSTATE`). -/
  | value4 (v : U4)
  /-- A channel value (`ENCODE`, `RXPHASE`, `RDOUT`). -/
  | value6 (v : U6)
  /-- The three fields of a channel value (`DECODE`). -/
  | fields (ack toggle : Bit) (payload : U4)
  /-- An error state (`RDERR`). -/
  | errState (e : Err)
  /-- A queue entry (`QHEAD`). -/
  | entry (e : Entry)
  /-- The working copy and whether out-of-sync was raised (`TXPHASE`). -/
  | sent (o : U6) (oos : Bool)
deriving DecidableEq, Repr

/-- The machine. `links` is the spec's own state (R20). The other fields are the model's: `cfg` the constants R7 leaves OPEN
(log 8), `result` what the last operation returned (log 7), `pending` the requests issued and not yet performed, oldest first
(R56, log 1). -/
@[ext]
structure State where
  links : Vector LinkState nLinks
  cfg : Params
  result : Result
  pending : List Request
deriving DecidableEq, Repr

/-- The one stop the spec calls a fault. -/
inductive Fault where
  /-- Raised by `step` when the error code 3 is presented as a code of `err_o`: it is never produced, and a reader that meets it
  may treat it as a fault of the implementation (R77, U9). Safe: the spec gives the code no meaning. Log 15. -/
  | errCodeThree
deriving DecidableEq, Repr

/-- Requests that are no operation of the block. -/
inductive Refusal where
  /-- Raised by an arm of `exec` that has no meaning yet: by none in this model. Safe. -/
  | notModelled (mnemonic : String)
  /-- Raised by `step` for a link number outside 0..`N_LINKS`-1, which is not an operation of the block (R53(a), D16, U7).
  Safe: the spec gives it no meaning. Log 14. -/
  | linkOutOfRange
  /-- Raised by `step` for a request whose operands are not those of the operation, in number. Safe: no such operation is in the
  spec. Log 14. -/
  | operandCount
deriving DecidableEq, Repr

/-- One link after `POR` (R32, R156). DESIGN CHOICE of the spec for `lastCmd`, `rxState`, `q` (D10, log 10) and `age` (D7,
log 11). -/
def LinkState.afterPor (p : Params) : LinkState where
  out := 0x00#6
  lastCmd := 0#4
  rxState := 0#4
  q := Vector.replicate queueCap ⟨0#4, 0#4⟩
  cursor := 0
  err := .none
  age := p.ageMax

/-- The block after `POR` (R32, R200), with given constants: nothing issued yet (R200: the block waits for operations). -/
def State.afterPor (p : Params) : State where
  links := Vector.replicate nLinks (LinkState.afterPor p)
  cfg := p
  result := .nothing
  pending := []

/-- The machine right after reset (R32), with the implementation's constants. -/
def State.reset : State := State.afterPor Config.params

end Sys2Proof.Machine
end

