-- ==== Sys2Proof/Machine/Flags.lean ====
section
/-! DEFINITION. The error state as flags: its 2-bit code (R77), and the views of a link's registers that the spec names without
storing them (R134, R203). -/

namespace Sys2Proof.Machine

/-- The 2-bit code of `err[i]` on `err_o[i]` (R77, D6). -/
def Err.code : Err → U2
  | .none => 0#2
  | .overrun => 1#2
  | .outOfSync => 2#2

/-- The error state a code stands for; code 3 stands for none (R77). -/
def Err.ofCode (c : U2) : Option Err :=
  if c = 0#2 then some .none
  else if c = 1#2 then some .overrun
  else if c = 2#2 then some .outOfSync
  else Option.none

/-- A queue entry viewed as a byte (R76, D15): `cmd` in bits 7:4, `data` in bits 3:0. -/
def Entry.toByte (e : Entry) : Byte := e.cmd ++ e.data

/-- The entry a byte is a view of (R76). -/
def Entry.ofByte (b : Byte) : Entry := ⟨b.extractLsb' 4 4, b.extractLsb' 0 4⟩

/-- The error gate's test (R129): the link is in an error state. -/
def LinkState.inError (l : LinkState) : Bool := l.err != .none

/-- The names of R134: a classification of the register values, not stored state (C4). -/
inductive LinkPhase where
  | errorOverrun
  | errorOutOfSync
  | awaitingCommandAck
  | resetSynchronized
  | awaitingDataAck
deriving DecidableEq, Repr

/-- The row of R134's table a link's registers are in. -/
def LinkState.phase (l : LinkState) : LinkPhase :=
  match l.err with
  | .overrun => .errorOverrun
  | .outOfSync => .errorOutOfSync
  | .none =>
    if toggleOf l.out = toggleCommand then .awaitingCommandAck
    else if l.out = 0x00#6 ∧ l.cursor.val = 0 then .resetSynchronized
    else .awaitingDataAck

/-- The valid entries of the queue, head first (R25): slots 0..`cursor`-1, when the link is not in error. -/
def LinkState.entries (l : LinkState) : List Entry :=
  if l.inError then [] else l.q.toList.take l.cursor.val

/-- A sampled value is a new half-message for the link (R72, R121): its toggle differs from the link's own outgoing ack. -/
def LinkState.newHalf (l : LinkState) (v : U6) : Bool := toggleOf v != ackOf l.out

/-- A sampled value acknowledges what the link has on the wire (R125, R134). -/
def LinkState.acked (l : LinkState) (v : U6) : Bool := ackOf v == toggleOf l.out

/-- The link is idle for a sampled value (R203), liveness aside: no error, an empty queue, no command half on the wire, nothing new
and everything acknowledged. -/
def LinkState.idle (l : LinkState) (v : U6) : Bool :=
  !l.inError && l.cursor.val == 0 && toggleOf l.out == toggleData && !l.newHalf v && l.acked v

end Sys2Proof.Machine
end

