-- ==== Sys2Proof/Machine/Ops.lean ====
section
/-! DEFINITION. The named operations on one link, each the pseudocode of its rule, and their lift to the block. Meanings call
these; nothing else writes a link's registers. -/

namespace Sys2Proof.Machine

/-! ## Entering and leaving an error state -/

/-- `raise` (R10, R176): entering an error state changes exactly one register. No vector, no saved state, no handler. -/
def LinkState.raise (e : Err) (l : LinkState) : LinkState := { l with err := e }

/-- `LRST` (R154): the return from an error state (R178), the application's reset and the stale branch's reset, all one operation
(D25). It writes `cursor`, `err` and `out` and nothing else (D9, log 21). -/
def LinkState.lrst (l : LinkState) : LinkState :=
  { l with cursor := 0, err := .none, out := channelEncode false toggleData 0#4 }

/-! ## The Command Queue (41_queue.md) -/

/-- The queue with every slot but the last holding the old value of the slot above it, and the last unchanged: the loop of R104
(D11, log 22). -/
def shiftQueue (q : Vector Entry queueCap) : Vector Entry queueCap :=
  Vector.ofFn fun k : Slot => if h : k.val + 1 < queueCap then q[k.val + 1] else q[k.val]

/-- `ENQ` (R100): the new state and `ok`. An entry is refused on a link in error (R106, D12, log 23), raises `OVERRUN` on a full
queue (R102), and else goes to the next free slot (R101). -/
def LinkState.enq (e : Entry) (l : LinkState) : LinkState × Bool :=
  if l.inError then (l, false)
  else if h : l.cursor.val < queueCap then
    ({ l with q := l.q.set l.cursor.val e, cursor := ⟨l.cursor.val + 1, Nat.succ_lt_succ h⟩ }, true)
  else (l.raise .overrun, false)

/-- `QHEAD` (R103): slot 0, whatever the cursor is. -/
def LinkState.qhead (l : LinkState) : Entry := l.q[0]

/-- `DEQ` (R104): shift and decrement; on an empty queue it raises `OUT_OF_SYNC` and shifts nothing (R105). -/
def LinkState.deq (l : LinkState) : LinkState :=
  if l.cursor.val = 0 then l.raise .outOfSync
  else { l with q := shiftQueue l.q, cursor := ⟨l.cursor.val - 1, Nat.lt_of_le_of_lt (Nat.sub_le _ _) l.cursor.isLt⟩ }

/-! ## The Link State Machine (42_link_fsm.md) -/

/-- The dispatch of a data half (R123): the one arm that acts is `CMD_UPDATE_STATE`; the fifteen other types do nothing (R74,
R75(b)). -/
def LinkState.dispatch (command data : U4) (l : LinkState) : LinkState :=
  if command = cmdUpdateState then { l with rxState := data } else l

/-- `RXPHASE` (R121): the new state and the working copy. A new half is a command half (R122) or a data half (R123), and either is
acknowledged (R124). `last_cmd` is kept after the dispatch (D27, log 24). -/
def LinkState.rxphase (o v : U6) (l : LinkState) : LinkState × U6 :=
  let (_, tIn, pIn) := channelDecode v
  if tIn ≠ ackOf o then
    if tIn = toggleCommand then ({ l with lastCmd := pIn }, withAck o tIn)
    else (l.dispatch l.lastCmd pIn, withAck o tIn)
  else (l, o)

/-- A data half with value `data` arrives on the link (R74): `RXPHASE` on what the link presents, when the command type dispatched on
(R123) is `code`; the dispatch on another type is not this one. So `rx_state` is written by `RXPHASE` alone (R23). -/
def LinkState.dataUnder (code data : U4) (l : LinkState) : LinkState :=
  if l.lastCmd = code then (l.rxphase l.out (channelEncode false toggleData data)).1 else l

/-- `TXPHASE` (R125): the new state, the working copy, and whether out-of-sync was raised. Blocked, idle, a command half (R126), or
a data half whose entry is dequeued (R128), out of sync when there is none (R127). -/
def LinkState.txphase (o v : U6) (l : LinkState) : LinkState × U6 × Bool :=
  let (aIn, _, _) := channelDecode v
  if aIn ≠ toggleOf o then (l, o, false)
  else if toggleOf o = toggleData ∧ l.cursor.val = 0 then (l, o, false)
  else
    let o := withToggle o (!toggleOf o)
    if toggleOf o = toggleCommand then (l, withPayload o l.qhead.cmd, false)
    else (l.deq, withPayload o l.qhead.data, l.cursor.val = 0)

/-! ## The Presence/Reset Supervisor (43_supervisor.md) -/

/-- `AGEUPD` (R150): cleared by a fresh value, else incremented up to `AGE_MAX` (R151). -/
def LinkState.ageupd (p : Params) (fresh : Bit) (l : LinkState) : LinkState :=
  { l with age := if fresh then 0 else min (l.age + 1) p.ageMax }

/-- `STALE` (R152). -/
def LinkState.stale (p : Params) (l : LinkState) : Bool := decide (p.expireLimit ≤ l.age)

/-- What `POR` does to one link (R156): `LRST`, and every other register set. -/
def LinkState.por (p : Params) (l : LinkState) : LinkState :=
  { l.lrst with lastCmd := 0#4, rxState := 0#4, q := Vector.replicate queueCap ⟨0#4, 0#4⟩, age := p.ageMax }

/-! ## One processing cycle -/

/-- The two phases and the one write of `out` (R130). In the step that raises out-of-sync the write is made only if `OOS_COMMIT`
(R127, D8, log 9); what the receive phase wrote stands. -/
def LinkState.phases (p : Params) (v : U6) (l : LinkState) : LinkState :=
  let (l, o) := l.rxphase l.out v
  let (l, o, oos) := l.txphase o v
  if oos ∧ ¬ p.oosCommit then l else { l with out := o }

/-- `LSTEP` (R130), in the priority of R175: the age update, the stale branch (R131), the error gate (R129), the phases. -/
def LinkState.lstep (p : Params) (v : U6) (fresh : Bit) (l : LinkState) : LinkState :=
  let l := l.ageupd p fresh
  if l.stale p then l.lrst
  else if l.inError then l
  else l.phases p v

/-! ## The block -/

/-- Read of a link's registers (R10). -/
def State.link (s : State) (i : Link) : LinkState := s.links[i.val]

/-- Write of a link's registers (R10). No other link is touched (R20). -/
def State.setLink (i : Link) (l : LinkState) (s : State) : State := { s with links := s.links.set i.val l }

/-- The operation's result (log 7). -/
def State.answer (r : Result) (s : State) : State := { s with result := r }

/-- An operation on one link that returns nothing. -/
def State.onLink (i : Link) (f : LinkState → LinkState) (s : State) : State := s.setLink i (f (s.link i))

/-- `for i in 0..N_LINKS-1` (R133, R156): one operation on each link, in ascending order (D24). -/
def State.forEachLink (f : Link → LinkState → LinkState) (s : State) : State :=
  allLinks.foldl (fun s i => s.onLink i (f i)) s

end Sys2Proof.Machine
end

