-- ==== Sys2Proof/Machine/CodecOps.lean ====
section
/-! DEFINITION. The rows PURE: the codec's functions. They read and write no state (R90, R91). -/

namespace Sys2Proof.Machine

/-- `ENCODE` (R90). -/
def execEncode (ack toggle : Bit) (payload : U4) (s : State) : Host.Outcome State Fault Refusal :=
  .next (s.answer (.value6 (channelEncode ack toggle payload)))

/-- `DECODE` (R91). -/
def execDecode (v : U6) (s : State) : Host.Outcome State Fault Refusal :=
  .next (s.answer (.fields (channelDecode v).1 (channelDecode v).2.1 (channelDecode v).2.2))

end Sys2Proof.Machine
end

