-- ==== Sys2Proof/Machine/CommandTypes.lean ====
section
/-! DEFINITION. The rows CMDTYPE4: the effect of a command type at the receiver when the data half arrives (R74). It is what
`RXPHASE` does with that half on a link whose `last_cmd` is the type (R123), and nothing on a link whose `last_cmd` is another.
DEDUCED, log 5. -/

namespace Sys2Proof.Machine

/-- `CT.0`: unrecognised, silently ignored (R74, R75(b)). -/
def execCt0 (i : Link) (d : U4) (s : State) : Host.Outcome State Fault Refusal :=
  .next ((s.onLink i (LinkState.dataUnder 0x0#4 d)).answer .nothing)

/-- `CT.UPDATE_STATE`: `rx_state[i] <- d` when the data half is new and `last_cmd[i]` is this type (R23, R74, R123). -/
def execCtUpdateState (i : Link) (d : U4) (s : State) : Host.Outcome State Fault Refusal :=
  .next ((s.onLink i (LinkState.dataUnder 0x1#4 d)).answer .nothing)

/-- `CT.2`: unrecognised, silently ignored (R74, R75(b)). -/
def execCt2 (i : Link) (d : U4) (s : State) : Host.Outcome State Fault Refusal :=
  .next ((s.onLink i (LinkState.dataUnder 0x2#4 d)).answer .nothing)

/-- `CT.3`: unrecognised, silently ignored (R74, R75(b)). -/
def execCt3 (i : Link) (d : U4) (s : State) : Host.Outcome State Fault Refusal :=
  .next ((s.onLink i (LinkState.dataUnder 0x3#4 d)).answer .nothing)

/-- `CT.4`: unrecognised, silently ignored (R74, R75(b)). -/
def execCt4 (i : Link) (d : U4) (s : State) : Host.Outcome State Fault Refusal :=
  .next ((s.onLink i (LinkState.dataUnder 0x4#4 d)).answer .nothing)

/-- `CT.5`: unrecognised, silently ignored (R74, R75(b)). -/
def execCt5 (i : Link) (d : U4) (s : State) : Host.Outcome State Fault Refusal :=
  .next ((s.onLink i (LinkState.dataUnder 0x5#4 d)).answer .nothing)

/-- `CT.6`: unrecognised, silently ignored (R74, R75(b)). -/
def execCt6 (i : Link) (d : U4) (s : State) : Host.Outcome State Fault Refusal :=
  .next ((s.onLink i (LinkState.dataUnder 0x6#4 d)).answer .nothing)

/-- `CT.7`: unrecognised, silently ignored (R74, R75(b)). -/
def execCt7 (i : Link) (d : U4) (s : State) : Host.Outcome State Fault Refusal :=
  .next ((s.onLink i (LinkState.dataUnder 0x7#4 d)).answer .nothing)

/-- `CT.8`: unrecognised, silently ignored (R74, R75(b)). -/
def execCt8 (i : Link) (d : U4) (s : State) : Host.Outcome State Fault Refusal :=
  .next ((s.onLink i (LinkState.dataUnder 0x8#4 d)).answer .nothing)

/-- `CT.9`: unrecognised, silently ignored (R74, R75(b)). -/
def execCt9 (i : Link) (d : U4) (s : State) : Host.Outcome State Fault Refusal :=
  .next ((s.onLink i (LinkState.dataUnder 0x9#4 d)).answer .nothing)

/-- `CT.A`: unrecognised, silently ignored (R74, R75(b)). -/
def execCtA (i : Link) (d : U4) (s : State) : Host.Outcome State Fault Refusal :=
  .next ((s.onLink i (LinkState.dataUnder 0xA#4 d)).answer .nothing)

/-- `CT.B`: unrecognised, silently ignored (R74, R75(b)). -/
def execCtB (i : Link) (d : U4) (s : State) : Host.Outcome State Fault Refusal :=
  .next ((s.onLink i (LinkState.dataUnder 0xB#4 d)).answer .nothing)

/-- `CT.C`: unrecognised, silently ignored (R74, R75(b)). -/
def execCtC (i : Link) (d : U4) (s : State) : Host.Outcome State Fault Refusal :=
  .next ((s.onLink i (LinkState.dataUnder 0xC#4 d)).answer .nothing)

/-- `CT.D`: unrecognised, silently ignored (R74, R75(b)). -/
def execCtD (i : Link) (d : U4) (s : State) : Host.Outcome State Fault Refusal :=
  .next ((s.onLink i (LinkState.dataUnder 0xD#4 d)).answer .nothing)

/-- `CT.E`: unrecognised, silently ignored (R74, R75(b)). -/
def execCtE (i : Link) (d : U4) (s : State) : Host.Outcome State Fault Refusal :=
  .next ((s.onLink i (LinkState.dataUnder 0xE#4 d)).answer .nothing)

/-- `CT.F`: unrecognised, silently ignored (R74, R75(b)). -/
def execCtF (i : Link) (d : U4) (s : State) : Host.Outcome State Fault Refusal :=
  .next ((s.onLink i (LinkState.dataUnder 0xF#4 d)).answer .nothing)

end Sys2Proof.Machine
end

