-- ==== Sys2Proof/Machine/CycleOps.lean ====
section
/-! DEFINITION. The Link State Machine's operations (42_link_fsm.md). -/

namespace Sys2Proof.Machine

/-- `RXPHASE` (R121 to R124), with the working copy as its result. -/
def execRxphase (i : Link) (o v : U6) (s : State) : Host.Outcome State Fault Refusal :=
  .next ((s.setLink i ((s.link i).rxphase o v).1).answer (.value6 ((s.link i).rxphase o v).2))

/-- `TXPHASE` (R125 to R128), with the working copy and `oos` as its result. -/
def execTxphase (i : Link) (o v : U6) (s : State) : Host.Outcome State Fault Refusal :=
  .next ((s.setLink i ((s.link i).txphase o v).1).answer
    (.sent ((s.link i).txphase o v).2.1 ((s.link i).txphase o v).2.2))

/-- `LSTEP` (R129 to R131). -/
def execLstep (i : Link) (v : U6) (fresh : Bit) (s : State) : Host.Outcome State Fault Refusal :=
  .next ((s.onLink i (LinkState.lstep s.cfg v fresh)).answer .nothing)

/-- `CYCLE` (R133): `LSTEP` of every link with its own inputs. -/
def execCycle (vs : Vector U6 nLinks) (fs : Vector Bit nLinks) (s : State) : Host.Outcome State Fault Refusal :=
  .next ((s.forEachLink fun i => LinkState.lstep s.cfg vs[i.val] fs[i.val]).answer .nothing)

end Sys2Proof.Machine
end

