-- ==== Sys2Proof/Machine/ErrorCodes.lean ====
section
/-! DEFINITION. The rows ERRCODE2: a code of the error state on `err_o[i]` (R35, R77), which is driven from `err[i]`. The row is the
observation of that code; it changes no register (R55). DEDUCED, log 6. -/

namespace Sys2Proof.Machine

/-- Whether `err_o[i]` carries a code (R35, R77). -/
def State.errOutIs (i : Link) (code : U2) (s : State) : Bool := (s.link i).err.code == code

/-- `ERR.NONE`: whether `err_o[i]` carries code 0 (R77). -/
def execErrNone (i : Link) (s : State) : Host.Outcome State Fault Refusal :=
  .next (s.answer (.truth (s.errOutIs i 0#2)))

/-- `ERR.OVERRUN`: whether `err_o[i]` carries code 1 (R77). -/
def execErrOverrun (i : Link) (s : State) : Host.Outcome State Fault Refusal :=
  .next (s.answer (.truth (s.errOutIs i 1#2)))

/-- `ERR.OUT_OF_SYNC`: whether `err_o[i]` carries code 2 (R77). -/
def execErrOutOfSync (i : Link) (s : State) : Host.Outcome State Fault Refusal :=
  .next (s.answer (.truth (s.errOutIs i 2#2)))

end Sys2Proof.Machine
end

