-- ==== Sys2Proof/Machine/Halves.lean ====
section
/-! DEFINITION. The rows CHANNEL6: a half-message that arrives on a link. It has its effect through the processing cycle that
samples it, and a value that has just arrived is fresh (R31, R120): DEDUCED, log 4. -/

namespace Sys2Proof.Machine

/-- `HALF.CMD`: the receiver semantics of R122, in the whole step of R130 that samples the value `a1cccc`. -/
def execHalfCmd (i : Link) (a : Bit) (c : U4) (s : State) : Host.Outcome State Fault Refusal :=
  .next ((s.onLink i (LinkState.lstep s.cfg (channelEncode a toggleCommand c) true)).answer .nothing)

/-- `HALF.DATA`: the receiver semantics of R123, in the whole step of R130 that samples the value `a0dddd`. -/
def execHalfData (i : Link) (a : Bit) (d : U4) (s : State) : Host.Outcome State Fault Refusal :=
  .next ((s.onLink i (LinkState.lstep s.cfg (channelEncode a toggleData d) true)).answer .nothing)

end Sys2Proof.Machine
end

