-- ==== Sys2Proof/Machine/PseudoOps.lean ====
section
/-! DEFINITION. The pseudo-operations (R80), each by its expansion. -/

namespace Sys2Proof.Machine

/-- `RESETALL` = `LRST 0; LRST 1; ...; LRST 5` (R80). -/
def execResetall (s : State) : Host.Outcome State Fault Refusal :=
  .next ((s.forEachLink fun _ => LinkState.lrst).answer .nothing)

/-- `SEND i, data` = `ENQ i, CMD_UPDATE_STATE, data` (R80). -/
def execSend (i : Link) (data : U4) (s : State) : Host.Outcome State Fault Refusal :=
  .next ((s.setLink i ((s.link i).enq ⟨cmdUpdateState, data⟩).1).answer
    (.truth ((s.link i).enq ⟨cmdUpdateState, data⟩).2))

end Sys2Proof.Machine
end

