-- ==== Sys2Proof/Machine/QueueOps.lean ====
section
/-! DEFINITION. The Command Queue's operations (41_queue.md). -/

namespace Sys2Proof.Machine

/-- `ENQ` (R100), with its result `ok` (D13). -/
def execEnq (i : Link) (cmd data : U4) (s : State) : Host.Outcome State Fault Refusal :=
  .next ((s.setLink i ((s.link i).enq ⟨cmd, data⟩).1).answer (.truth ((s.link i).enq ⟨cmd, data⟩).2))

/-- `QHEAD` (R103): reads slot 0, writes nothing. -/
def execQhead (i : Link) (s : State) : Host.Outcome State Fault Refusal :=
  .next (s.answer (.entry (s.link i).qhead))

/-- `DEQ` (R104, R105). -/
def execDeq (i : Link) (s : State) : Host.Outcome State Fault Refusal :=
  .next ((s.onLink i LinkState.deq).answer .nothing)

end Sys2Proof.Machine
end

