-- ==== Sys2Proof/Machine/SupervisorOps.lean ====
section
/-! DEFINITION. The Presence/Reset Supervisor's operations and the host reads (43_supervisor.md). The reads change no state of the
block (R55). -/

namespace Sys2Proof.Machine

/-- `AGEUPD` (R150). -/
def execAgeupd (i : Link) (fresh : Bit) (s : State) : Host.Outcome State Fault Refusal :=
  .next ((s.onLink i (LinkState.ageupd s.cfg fresh)).answer .nothing)

/-- `STALE` (R152). -/
def execStale (i : Link) (s : State) : Host.Outcome State Fault Refusal :=
  .next (s.answer (.truth ((s.link i).stale s.cfg)))

/-- `LRST` (R154). -/
def execLrst (i : Link) (s : State) : Host.Outcome State Fault Refusal :=
  .next ((s.onLink i LinkState.lrst).answer .nothing)

/-- `POR` (R156), issued again with the same effect as the first time (U21, log 27). -/
def execPor (s : State) : Host.Outcome State Fault Refusal :=
  .next ((s.forEachLink fun _ => LinkState.por s.cfg).answer .nothing)

/-- `RDSTATE` (R158). -/
def execRdstate (i : Link) (s : State) : Host.Outcome State Fault Refusal :=
  .next (s.answer (.value4 (s.link i).rxState))

/-- `RDERR` (R159). -/
def execRderr (i : Link) (s : State) : Host.Outcome State Fault Refusal :=
  .next (s.answer (.errState (s.link i).err))

/-- `RDOUT` (R160). -/
def execRdout (i : Link) (s : State) : Host.Outcome State Fault Refusal :=
  .next (s.answer (.value6 (s.link i).out))

/-- `RDSTALE` (R161): `STALE` on the present age; no `AGEUPD` is performed. -/
def execRdstale (i : Link) (s : State) : Host.Outcome State Fault Refusal :=
  .next (s.answer (.truth ((s.link i).stale s.cfg)))

end Sys2Proof.Machine
end

