-- ==== Sys2Proof/Machine/Dispatch.lean ====
section
/-! DEFINITION. One arm per operation, each one call of its meaning. -/

namespace Sys2Proof.Machine

def exec (i : Instr) (s : State) : Host.Outcome State Fault Refusal :=
  match i with
  | .halfCmd l a c => Sys2Proof.Machine.execHalfCmd l a c s
  | .halfData l a d => Sys2Proof.Machine.execHalfData l a d s
  | .ct0 l d => Sys2Proof.Machine.execCt0 l d s
  | .ctUpdateState l d => Sys2Proof.Machine.execCtUpdateState l d s
  | .ct2 l d => Sys2Proof.Machine.execCt2 l d s
  | .ct3 l d => Sys2Proof.Machine.execCt3 l d s
  | .ct4 l d => Sys2Proof.Machine.execCt4 l d s
  | .ct5 l d => Sys2Proof.Machine.execCt5 l d s
  | .ct6 l d => Sys2Proof.Machine.execCt6 l d s
  | .ct7 l d => Sys2Proof.Machine.execCt7 l d s
  | .ct8 l d => Sys2Proof.Machine.execCt8 l d s
  | .ct9 l d => Sys2Proof.Machine.execCt9 l d s
  | .ctA l d => Sys2Proof.Machine.execCtA l d s
  | .ctB l d => Sys2Proof.Machine.execCtB l d s
  | .ctC l d => Sys2Proof.Machine.execCtC l d s
  | .ctD l d => Sys2Proof.Machine.execCtD l d s
  | .ctE l d => Sys2Proof.Machine.execCtE l d s
  | .ctF l d => Sys2Proof.Machine.execCtF l d s
  | .errNone l => Sys2Proof.Machine.execErrNone l s
  | .errOverrun l => Sys2Proof.Machine.execErrOverrun l s
  | .errOutOfSync l => Sys2Proof.Machine.execErrOutOfSync l s
  | .encode ack toggle payload => Sys2Proof.Machine.execEncode ack toggle payload s
  | .decode v => Sys2Proof.Machine.execDecode v s
  | .enq l cmd data => Sys2Proof.Machine.execEnq l cmd data s
  | .qhead l => Sys2Proof.Machine.execQhead l s
  | .deq l => Sys2Proof.Machine.execDeq l s
  | .rxphase l o v => Sys2Proof.Machine.execRxphase l o v s
  | .txphase l o v => Sys2Proof.Machine.execTxphase l o v s
  | .lstep l v fresh => Sys2Proof.Machine.execLstep l v fresh s
  | .cycle vs fs => Sys2Proof.Machine.execCycle vs fs s
  | .ageupd l fresh => Sys2Proof.Machine.execAgeupd l fresh s
  | .stale l => Sys2Proof.Machine.execStale l s
  | .lrst l => Sys2Proof.Machine.execLrst l s
  | .por => Sys2Proof.Machine.execPor s
  | .rdstate l => Sys2Proof.Machine.execRdstate l s
  | .rderr l => Sys2Proof.Machine.execRderr l s
  | .rdout l => Sys2Proof.Machine.execRdout l s
  | .rdstale l => Sys2Proof.Machine.execRdstale l s
  | .resetall => Sys2Proof.Machine.execResetall s
  | .send l data => Sys2Proof.Machine.execSend l data s

end Sys2Proof.Machine
end

