-- ==== Sys2Proof/WellFormed.lean ====
section
/-! DEFINITION. Which requests name an operation of the block. The types of `Instr` leave no ill-formed instruction (R53(a), R71);
what the platform issues can still name no link, carry the wrong number of operands, or present the error code 3. -/

namespace Sys2Proof

/-- How many operands a call carries, the link aside (the operand lists of R90 to R161 and R80). -/
def OpName.arity : OpName → Nat
  | .encode => 3
  | .decode => 1
  | .enq => 2
  | .rxphase => 2
  | .txphase => 2
  | .lstep => 2
  | .cycle => 2 * nLinks
  | .ageupd => 1
  | .send => 1
  | .qhead | .deq | .stale | .lrst | .por | .rdstate | .rderr | .rdout | .rdstale | .resetall => 0

/-- Whether a call has a link operand (R50). -/
def OpName.takesLink : OpName → Bool
  | .encode | .decode | .cycle | .por | .resetall => false
  | _ => true

/-- How many operand containers a port carries: the value itself on the wire; the code and the data value dispatched (R123) for a
command type; the code for an error code. -/
def Port.arity : Port → Nat
  | .wire => 1
  | .cmdType => 2
  | .errCode => 1
  | .call op => op.arity

/-- Whether the port concerns one link. -/
def Port.takesLink : Port → Bool
  | .call op => op.takesLink
  | _ => true

/-- Check 1: a link operand names a link (R53(a), D16). -/
def Request.linkOk (r : Request) : Bool := !r.port.takesLink || decide (r.link < nLinks)

/-- Check 2: the operands are those of the operation, in number. -/
def Request.operandsOk (r : Request) : Bool := r.bytes.length == r.port.arity

/-- Check 3: the error code 3 is never produced (R77). -/
def Request.codeOk (r : Request) : Bool :=
  match r.port, r.bytes with
  | .errCode, [b] => Machine.trunc2 b != 3#2
  | _, _ => true

/-- The request names an operation of the block. -/
def Request.wellFormed (r : Request) : Bool := r.linkOk && r.operandsOk && r.codeOk

end Sys2Proof
end

