-- ==== Sys2Proof/Decode.lean ====
section
/-! DEFINITION. The decoder, total on every request and rejecting by name, and after it the encoder, written from the tables of
30_encoding.md (R70, R72, R74, R77). For the operations that have no bits (R78) a request is a call with its operands in
containers, log 2. -/

namespace Sys2Proof

open Machine

/-- Why a request names no operation of the block. -/
inductive DecodeError where
  /-- The link number names no link (R53(a), D16). -/
  | linkOutOfRange
  /-- The operands are not those of the operation, in number. -/
  | operandCount
  /-- The error code 3, which is never produced (R77). -/
  | errCodeThree
deriving DecidableEq, Repr

/-- The link a number names, or the rejection of R53(a). -/
def linkOfNat (n : Nat) (f : Link → Except DecodeError Instr) : Except DecodeError Instr :=
  if h : n < nLinks then f ⟨n, h⟩ else .error .linkOutOfRange

/-- No operand. -/
def operands0 (bytes : List Byte) (i : Instr) : Except DecodeError Instr :=
  match bytes with
  | [] => .ok i
  | _ => .error .operandCount

/-- One operand. -/
def operands1 (bytes : List Byte) (f : Byte → Instr) : Except DecodeError Instr :=
  match bytes with
  | [x] => .ok (f x)
  | _ => .error .operandCount

/-- Two operands. -/
def operands2 (bytes : List Byte) (f : Byte → Byte → Instr) : Except DecodeError Instr :=
  match bytes with
  | [x, y] => .ok (f x y)
  | _ => .error .operandCount

/-- Three operands. -/
def operands3 (bytes : List Byte) (f : Byte → Byte → Byte → Instr) : Except DecodeError Instr :=
  match bytes with
  | [x, y, z] => .ok (f x y z)
  | _ => .error .operandCount

/-- The operands of `CYCLE` (R80): the six values `v0..v5`, then the six bits `b0..b5`. -/
def operandsCycle (bytes : List Byte) : Except DecodeError Instr :=
  match bytes with
  | [v0, v1, v2, v3, v4, v5, b0, b1, b2, b3, b4, b5] =>
    .ok (.cycle #v[trunc6 v0, trunc6 v1, trunc6 v2, trunc6 v3, trunc6 v4, trunc6 v5]
      #v[trunc1 b0, trunc1 b1, trunc1 b2, trunc1 b3, trunc1 b4, trunc1 b5])
  | _ => .error .operandCount

/-- The half-message a channel value on the wire of link `i` is (R72, R79): all 64 values are one (R75(a)). -/
def halfOfValue (i : Link) (v : U6) : Instr :=
  match halfKind v with
  | .command => .halfCmd i (ackOf v) (payloadOf v)
  | .data => .halfData i (ackOf v) (payloadOf v)

/-- The command type a 4-bit code is (R74): all sixteen codes are one. The last arm is code 15. -/
def commandTypeOf (i : Link) (code data : U4) : Instr :=
  match code.toNat with
  | 0 => .ct0 i data
  | 1 => .ctUpdateState i data
  | 2 => .ct2 i data
  | 3 => .ct3 i data
  | 4 => .ct4 i data
  | 5 => .ct5 i data
  | 6 => .ct6 i data
  | 7 => .ct7 i data
  | 8 => .ct8 i data
  | 9 => .ct9 i data
  | 10 => .ctA i data
  | 11 => .ctB i data
  | 12 => .ctC i data
  | 13 => .ctD i data
  | 14 => .ctE i data
  | _ => .ctF i data

/-- The error state a 2-bit code is (R77); code 3 is rejected by name. -/
def errCodeOf (i : Link) (code : U2) : Except DecodeError Instr :=
  match code.toNat with
  | 0 => .ok (.errNone i)
  | 1 => .ok (.errOverrun i)
  | 2 => .ok (.errOutOfSync i)
  | _ => .error .errCodeThree

/-- The operation a call names, with its operands (R78). -/
def decodeCall (op : OpName) (link : Nat) (bytes : List Byte) : Except DecodeError Instr :=
  match op with
  | .encode => operands3 bytes fun a t p => .encode (trunc1 a) (trunc1 t) (trunc4 p)
  | .decode => operands1 bytes fun v => .decode (trunc6 v)
  | .enq => linkOfNat link fun i => operands2 bytes fun c d => .enq i (trunc4 c) (trunc4 d)
  | .qhead => linkOfNat link fun i => operands0 bytes (.qhead i)
  | .deq => linkOfNat link fun i => operands0 bytes (.deq i)
  | .rxphase => linkOfNat link fun i => operands2 bytes fun o v => .rxphase i (trunc6 o) (trunc6 v)
  | .txphase => linkOfNat link fun i => operands2 bytes fun o v => .txphase i (trunc6 o) (trunc6 v)
  | .lstep => linkOfNat link fun i => operands2 bytes fun v b => .lstep i (trunc6 v) (trunc1 b)
  | .cycle => operandsCycle bytes
  | .ageupd => linkOfNat link fun i => operands1 bytes fun b => .ageupd i (trunc1 b)
  | .stale => linkOfNat link fun i => operands0 bytes (.stale i)
  | .lrst => linkOfNat link fun i => operands0 bytes (.lrst i)
  | .por => operands0 bytes .por
  | .rdstate => linkOfNat link fun i => operands0 bytes (.rdstate i)
  | .rderr => linkOfNat link fun i => operands0 bytes (.rderr i)
  | .rdout => linkOfNat link fun i => operands0 bytes (.rdout i)
  | .rdstale => linkOfNat link fun i => operands0 bytes (.rdstale i)
  | .resetall => operands0 bytes .resetall
  | .send => linkOfNat link fun i => operands1 bytes fun d => .send i (trunc4 d)

/-- An error code on `err_o` of link `i`. -/
def decodeErrCode (i : Link) (bytes : List Byte) : Except DecodeError Instr :=
  match bytes with
  | [c] => errCodeOf i (trunc2 c)
  | _ => .error .operandCount

/-- The operation a request names. -/
def decode (r : Request) : Except DecodeError Instr :=
  match r.port with
  | .wire => linkOfNat r.link fun i => operands1 r.bytes fun v => halfOfValue i (trunc6 v)
  | .cmdType => linkOfNat r.link fun i => operands2 r.bytes fun c d => commandTypeOf i (trunc4 c) (trunc4 d)
  | .errCode => linkOfNat r.link fun i => decodeErrCode i r.bytes
  | .call op => decodeCall op r.link r.bytes

/-! ## The encoder -/

/-- A command type's request: its 4-bit code (R74) and the data value it is dispatched on. -/
def encodeCommandType (i : Link) (code data : U4) : Request := ⟨.cmdType, i.val, [byteOfU4 code, byteOfU4 data]⟩

/-- An error code's request (R77). -/
def encodeErrCode (i : Link) (code : U2) : Request := ⟨.errCode, i.val, [byteOfU2 code]⟩

/-- A channel value on the wire of a link (R70, R52). -/
def encodeWire (i : Link) (v : U6) : Request := ⟨.wire, i.val, [byteOfU6 v]⟩

/-- A call on a link. -/
def encodeCall (op : OpName) (i : Link) (bytes : List Byte) : Request := ⟨.call op, i.val, bytes⟩

/-- A call without a link operand: the link number, which is not read, is 0. -/
def encodeBlockCall (op : OpName) (bytes : List Byte) : Request := ⟨.call op, 0, bytes⟩

/-- The request of an instruction. -/
def encode : Instr → Request
  | .halfCmd i a c => encodeWire i (channelEncode a toggleCommand c)
  | .halfData i a d => encodeWire i (channelEncode a toggleData d)
  | .ct0 i d => encodeCommandType i 0x0#4 d
  | .ctUpdateState i d => encodeCommandType i 0x1#4 d
  | .ct2 i d => encodeCommandType i 0x2#4 d
  | .ct3 i d => encodeCommandType i 0x3#4 d
  | .ct4 i d => encodeCommandType i 0x4#4 d
  | .ct5 i d => encodeCommandType i 0x5#4 d
  | .ct6 i d => encodeCommandType i 0x6#4 d
  | .ct7 i d => encodeCommandType i 0x7#4 d
  | .ct8 i d => encodeCommandType i 0x8#4 d
  | .ct9 i d => encodeCommandType i 0x9#4 d
  | .ctA i d => encodeCommandType i 0xA#4 d
  | .ctB i d => encodeCommandType i 0xB#4 d
  | .ctC i d => encodeCommandType i 0xC#4 d
  | .ctD i d => encodeCommandType i 0xD#4 d
  | .ctE i d => encodeCommandType i 0xE#4 d
  | .ctF i d => encodeCommandType i 0xF#4 d
  | .errNone i => encodeErrCode i 0#2
  | .errOverrun i => encodeErrCode i 1#2
  | .errOutOfSync i => encodeErrCode i 2#2
  | .encode a t p => encodeBlockCall .encode [byteOfBit a, byteOfBit t, byteOfU4 p]
  | .decode v => encodeBlockCall .decode [byteOfU6 v]
  | .enq i c d => encodeCall .enq i [byteOfU4 c, byteOfU4 d]
  | .qhead i => encodeCall .qhead i []
  | .deq i => encodeCall .deq i []
  | .rxphase i o v => encodeCall .rxphase i [byteOfU6 o, byteOfU6 v]
  | .txphase i o v => encodeCall .txphase i [byteOfU6 o, byteOfU6 v]
  | .lstep i v b => encodeCall .lstep i [byteOfU6 v, byteOfBit b]
  | .cycle vs fs => encodeBlockCall .cycle (vs.toList.map byteOfU6 ++ fs.toList.map byteOfBit)
  | .ageupd i b => encodeCall .ageupd i [byteOfBit b]
  | .stale i => encodeCall .stale i []
  | .lrst i => encodeCall .lrst i []
  | .por => encodeBlockCall .por []
  | .rdstate i => encodeCall .rdstate i []
  | .rderr i => encodeCall .rderr i []
  | .rdout i => encodeCall .rdout i []
  | .rdstale i => encodeCall .rdstale i []
  | .resetall => encodeBlockCall .resetall []
  | .send i d => encodeCall .send i [byteOfU4 d]

/-! ## Words of the opcode table -/

/-- The request whose bits are `w`, numbered as the table numbers them. The width tells the table a word is from where it can: 2
bits an error code, 4 bits a command type, 6 bits a channel value. Eight bits are a row's bits in a whole byte, and there the rows
overlap: a byte below 16 is read as a command type, any other as a channel value in its container (R52), so that each row of these two
tables has a byte. The bits the table does not give a row (the link, the data value) are 0. DESIGN CHOICE, log 3. -/
def requestOfWord (nbits w : Nat) : Option Request :=
  match nbits with
  | 2 => some ⟨.errCode, 0, [BitVec.ofNat 8 (w % 4)]⟩
  | 4 => some ⟨.cmdType, 0, [BitVec.ofNat 8 (w % 16), 0#8]⟩
  | 6 => some ⟨.wire, 0, [BitVec.ofNat 8 (w % 64)]⟩
  | 8 =>
    if w % 256 < 16 then some ⟨.cmdType, 0, [BitVec.ofNat 8 w, 0#8]⟩
    else some ⟨.wire, 0, [BitVec.ofNat 8 w]⟩
  | _ => none

/-- The instruction the decoder reads from a word of the opcode table. -/
def decodeTableWord (nbits w : Nat) : Option Instr :=
  match requestOfWord nbits w with
  | some r =>
    match decode r with
    | .ok i => some i
    | .error _ => none
  | none => none

end Sys2Proof
end

