-- ==== Sys2Proof/Machine/Fetch.lean ====
section
/-! DEFINITION. What the next step performs. The block has no program counter and no fetch (R27): it performs the requests issued to
it, one whole operation at a time, in the order in which they were issued (R56). DESIGN CHOICE, log 1. -/

namespace Sys2Proof.Machine

/-- The oldest request not yet performed, and the state without it. -/
def fetch (s : State) : Option (Request × State) :=
  match s.pending with
  | [] => none
  | r :: rest => some (r, { s with pending := rest })

/-- The surroundings issue requests after those already issued (R56, R202(e)). -/
def State.issue (rs : List Request) (s : State) : State := { s with pending := s.pending ++ rs }

/-- A request that names no operation stops the machine by name: a link that does not exist (R53(a)) or operands in the wrong
number are refused, and the error code 3 is the fault of R77. -/
def stopFor : DecodeError → Host.Outcome State Fault Refusal
  | .linkOutOfRange => .refused .linkOutOfRange
  | .operandCount => .refused .operandCount
  | .errCodeThree => .fault .errCodeThree

/-- The requests that a word of the opcode table stands for, alone (log 3); a width the table has no word of gives a request without
operands, which names nothing. -/
def requestsOfWord (nbits w : Nat) : List Request :=
  match requestOfWord nbits w with
  | some r => [r]
  | none => [⟨.wire, 0, []⟩]

end Sys2Proof.Machine
end

