-- ==== Sys2Proof/Machine/Step.lean ====
section
/-! DEFINITION. One step: the oldest pending request is decoded and performed, as a whole (R56). With none pending the block holds
its state (R185, R200). -/

namespace Sys2Proof.Machine

/-- One step of the machine. -/
def step (s : State) : Host.Outcome State Fault Refusal :=
  match fetch s with
  | none => .next s
  | some (r, s') =>
    match decode r with
    | .ok i => exec i s'
    | .error e => stopFor e

/-- The state whose next step performs exactly the instruction of a word of the opcode table (log 3). -/
def State.withFetchWord (s : State) (nbits w : Nat) : State := { s with pending := requestsOfWord nbits w }

end Sys2Proof.Machine
end

