-- ==== Sys2Proof/Machine/Sequence.lean ====
section
/-! DEFINITION. Sequences of operations: the behaviour of the block is the behaviour of some sequence of whole operations (R56), and
the signal-level view is one such sequence per clock (R35, R57). -/

namespace Sys2Proof.Machine

/-- The operations of a list, each seeing all effects of the earlier ones (R56). -/
def execAll : List Instr → State → Host.Outcome State Fault Refusal
  | [], s => .next s
  | i :: rest, s =>
    match exec i s with
    | .next t => execAll rest t
    | .fault r => .fault r
    | .refused r => .refused r

/-- `k` steps of the machine, ending at the first stop. -/
def runSteps : Nat → State → Host.Outcome State Fault Refusal
  | 0, s => .next s
  | k + 1, s =>
    match step s with
    | .next t => runSteps k t
    | .fault r => .fault r
    | .refused r => .refused r

/-! ## The signal-level view -/

/-- The inputs of one link in one clock (R35). -/
structure LinkIn where
  inValue : U6
  inFresh : Bit
  enqValid : Bit
  enqCmd : U4
  enqData : U4
  rstReq : Bit
deriving DecidableEq, Repr

/-- The inputs of the block in one clock (R35): the block-wide strobes `por` and `tick`, and the links' inputs. -/
structure PortsIn where
  por : Bit
  tick : Bit
  links : Vector LinkIn nLinks
deriving DecidableEq, Repr

/-- The strobes of one link in one clock, in the order of R57: `LRST`, then `ENQ`, then the `LSTEP` of the `CYCLE`. -/
def LinkIn.ops (p : LinkIn) (tick : Bit) (i : Link) : List Instr :=
  (if p.rstReq then [.lrst i] else []) ++
    (if p.enqValid then [.enq i p.enqCmd p.enqData] else []) ++
      (if tick then [.lstep i p.inValue p.inFresh] else [])

/-- The operations of one clock (R57): `POR` and nothing else, else each link's strobes. -/
def PortsIn.ops (p : PortsIn) : List Instr :=
  if p.por then [.por] else allLinks.flatMap fun i => p.links[i.val].ops p.tick i

/-- One clock of the signal-level view: its operations are issued (R57). DESIGN CHOICE of the spec (D2), log 17. -/
def State.clock (p : PortsIn) (s : State) : State := s.issue (p.ops.map encode)

/-- The outputs of one link that are driven continuously (R35): `out_value`, `rx_state_o`, `err_o`, `stale_o`. -/
structure LinkOut where
  outValue : U6
  rxStateO : U4
  errO : U2
  staleO : Bit
deriving DecidableEq, Repr

/-- The outputs a link drives (R35). -/
def State.outputs (s : State) (i : Link) : LinkOut where
  outValue := (s.link i).out
  rxStateO := (s.link i).rxState
  errO := (s.link i).err.code
  staleO := (s.link i).stale s.cfg

/-- `enq_ok[i]` (R35): the result of the clock's `ENQ` on a link that was in state `l` when the clock began; no value where the clock
performs no `ENQ` on the link (log 17). -/
def PortsIn.enqOk (p : PortsIn) (i : Link) (l : LinkState) : Option Bool :=
  let x := p.links[i.val]
  if p.por ∨ ¬ x.enqValid then none
  else some ((if x.rstReq then l.lrst else l).enq ⟨x.enqCmd, x.enqData⟩).2

end Sys2Proof.Machine
end

