-- ==== Sys2Proof/Machine/Channel.lean ====
section
/-! DEFINITION. Two engines and the channel between them (R64). The channel is outside the block and OPEN: the block's own inputs are
unconstrained, and what is said of two engines takes the parameter `ChannelModel`. Its instances are the free inputs of one block and
the two channels R64 describes, for claims that name them as a premise (D20, log 18). -/

namespace Sys2Proof

open Machine

/-- The value and the freshness with which an operation steps link `i` (R130, R133; log 4 for the halves); none when it is no
processing cycle of the link. -/
def Instr.sampleOn (i : Link) : Instr → Option (U6 × Bit)
  | .lstep k v f => if k = i then some (v, f) else none
  | .halfCmd k a c => if k = i then some (channelEncode a toggleCommand c, true) else none
  | .halfData k a d => if k = i then some (channelEncode a toggleData d, true) else none
  | .cycle vs fs => some (vs[i.val], fs[i.val])
  | .ct0 .. | .ctUpdateState .. | .ct2 .. | .ct3 .. | .ct4 .. | .ct5 .. | .ct6 .. | .ct7 .. | .ct8 .. | .ct9 .. | .ctA .. | .ctB ..
  | .ctC .. | .ctD .. | .ctE .. | .ctF .. | .errNone _ | .errOverrun _ | .errOutOfSync _ | .encode .. | .decode _ | .enq ..
  | .qhead _ | .deq _ | .rxphase .. | .txphase .. | .ageupd .. | .stale _ | .lrst _ | .por | .rdstate _ | .rderr _ | .rdout _
  | .rdstale _ | .resetall | .send .. => none

end Sys2Proof

namespace Sys2Proof.Machine

/-- Two engines, A and B (R137). -/
structure Engines where
  a : State
  b : State
deriving DecidableEq, Repr

/-- The engines with their names exchanged. -/
def Engines.swap (e : Engines) : Engines := ⟨e.b, e.a⟩

/-- The reciprocating channel (R64): A's `LSTEP` of link `i` reads what B's link `j` presents now. -/
def Engines.lstepA (i j : Link) (fresh : Bit) (e : Engines) : Engines :=
  { e with a := e.a.onLink i (LinkState.lstep e.a.cfg (e.b.link j).out fresh) }

/-- The same for B: its `LSTEP` of link `j` reads what A's link `i` presents now. -/
def Engines.lstepB (i j : Link) (fresh : Bit) (e : Engines) : Engines := (e.swap.lstepA j i fresh).swap

/-- The (command, data) pair the receive phase of a link observes in a step that samples `v` (R138(a)): `last_cmd` at the time of a
data half, and the payload of that data half. -/
def LinkState.observes (l : LinkState) (v : U6) : Option Entry :=
  if l.newHalf v ∧ halfKind v = .data then some ⟨l.lastCmd, payloadOf v⟩ else none

/-- One round of two engines that step alternately with fresh values: A, then B (R225). -/
def Engines.round (i j : Link) (e : Engines) : Engines := (e.lstepA i j true).lstepB i j true

/-- What B's receive phase observes in a round (R138(a)). -/
def Engines.observed (i j : Link) (e : Engines) : Option Entry :=
  (e.b.link j).observes ((e.lstepA i j true).a.link i).out

/-- `n` rounds, with the pairs B observes, oldest first. -/
def Engines.rounds (i j : Link) : Nat → Engines → List Entry × Engines
  | 0, e => ([], e)
  | n + 1, e =>
    let (seen, last) := (e.round i j).rounds i j n
    ((e.observed i j).toList ++ seen, last)

/-! ## The channel as a parameter -/

/-- `ChannelModel` (R7, R64): one direction of a channel. `present` takes what the sending end presents into the channel; `sample` is
the value an `LSTEP` of the receiving end reads, where `k` stands for what the channel leaves open, and none where the channel has
no such reading. -/
structure ChannelModel where
  Chan : Type
  start : Chan
  present : U6 → Chan → Chan
  sample : Nat → Chan → Option (U6 × Chan)

/-- The free inputs (R31, D20): every value may be read at every step. -/
def ChannelModel.free : ChannelModel where
  Chan := Unit
  start := ()
  present _ c := c
  sample k c := some (BitVec.ofNat 6 k, c)

/-- The reciprocating channel (R64): a step reads what the other end presents now. At the start that is the reset value. -/
def ChannelModel.reciprocating : ChannelModel where
  Chan := U6
  start := 0x00#6
  present v _ := v
  sample _ c := some (c, c)

/-- The values an end has presented, oldest first, and the number of the value the other end read last. -/
structure History where
  values : List U6
  seen : Nat
deriving DecidableEq, Repr

/-- The sampled register (R64): a step reads the value number `k`, not earlier than the value its end read last. So values may be
skipped and repeated, never reordered. At the start the reset value has been presented. -/
def ChannelModel.sampledRegister : ChannelModel where
  Chan := History
  start := ⟨[0x00#6], 0⟩
  present v h := { h with values := h.values ++ [v] }
  sample k h :=
    if h.seen ≤ k then
      match h.values[k]? with
      | some v => some (v, { h with seen := k })
      | none => none
    else none

/-- Two engines joined by a channel: its direction from A to B, and from B to A. -/
structure Joined (M : ChannelModel) where
  engines : Engines
  ab : M.Chan
  ba : M.Chan

/-- The names exchanged. -/
def Joined.swap {M : ChannelModel} (c : Joined M) : Joined M := ⟨c.engines.swap, c.ba, c.ab⟩

/-- A's `LSTEP` of link `i` reads from the channel, and what it then presents goes into the channel. A `CYCLE` of A is this step and
those of its other links, in any order (R58). -/
def Joined.lstepA {M : ChannelModel} (i : Link) (k : Nat) (fresh : Bit) (c : Joined M) : Option (Joined M) :=
  match M.sample k c.ba with
  | some (v, ba) =>
    let a := c.engines.a.onLink i (LinkState.lstep c.engines.a.cfg v fresh)
    some ⟨⟨a, c.engines.b⟩, M.present (a.link i).out c.ab, ba⟩
  | none => none

/-- The same for B's `LSTEP` of link `j`. -/
def Joined.lstepB {M : ChannelModel} (j : Link) (k : Nat) (fresh : Bit) (c : Joined M) : Option (Joined M) :=
  (c.swap.lstepA j k fresh).map Joined.swap

/-- Any other operation that an agent issues on A (R56), a step of another link among them; what link `i` presents afterwards goes into
the channel. An operation that would sample link `i` past the channel is none of these. -/
def Joined.opA {M : ChannelModel} (i : Link) (op : Instr) (c : Joined M) : Option (Joined M) :=
  if op.isInternal ∨ (op.sampleOn i).isSome then none
  else
    match exec op c.engines.a with
    | .next a => some ⟨⟨a, c.engines.b⟩, M.present (a.link i).out c.ab, c.ba⟩
    | _ => none

/-- The same on B. -/
def Joined.opB {M : ChannelModel} (j : Link) (op : Instr) (c : Joined M) : Option (Joined M) :=
  (c.swap.opA j op).map Joined.swap

end Sys2Proof.Machine
end

