-- ==== Sys2Proof/Machine/Trace.lean ====
section
/-! DEFINITION. The trace notation (R11, R80): its operations, what each stands for, and its text. -/

namespace Sys2Proof.Machine

/-- An operation of the trace notation (R80), the two pseudo-operations among them; `LSTEP` may leave out `fresh`. -/
inductive TraceOp where
  | por
  | lrst (i : Link)
  | enq (i : Link) (cmd data : U4)
  | lstep (i : Link) (v : U6) (fresh : Option Bit)
  | cycle (vs : Vector U6 nLinks) (fs : Vector Bit nLinks)
  | rdstate (i : Link)
  | rderr (i : Link)
  | rdout (i : Link)
  | rdstale (i : Link)
  | resetall
  | send (i : Link) (data : U4)
deriving DecidableEq, Repr

/-- The engine a line of a two-engine program is applied to (R80). -/
inductive EngineName where
  | a | b
deriving DecidableEq, Repr

/-- A line (R80): the engine where it is named, the operation, and the result where it is written. -/
structure TraceLine where
  engine : Option EngineName
  op : TraceOp
  result : Option Result
deriving DecidableEq, Repr

/-- The operations a trace operation stands for, pseudo-operations expanded (R80): `LSTEP` without `fresh` has `fresh=1`. -/
def TraceOp.ops : TraceOp → List Instr
  | .por => [.por]
  | .lrst i => [.lrst i]
  | .enq i c d => [.enq i c d]
  | .lstep i v fresh => [.lstep i v (fresh.getD true)]
  | .cycle vs fs => [.cycle vs fs]
  | .rdstate i => [.rdstate i]
  | .rderr i => [.rderr i]
  | .rdout i => [.rdout i]
  | .rdstale i => [.rdstale i]
  | .resetall => [.lrst 0, .lrst 1, .lrst 2, .lrst 3, .lrst 4, .lrst 5]
  | .send i d => [.enq i cmdUpdateState d]

/-- The decimal text of a number 0..15 (R80). -/
def decText (n : Nat) : String :=
  (["0", "1", "2", "3", "4", "5", "6", "7", "8", "9", "10", "11", "12", "13", "14", "15"][n]?).getD "?"

/-- A hexadecimal digit. -/
def hexDigit (n : Nat) : String :=
  (["0", "1", "2", "3", "4", "5", "6", "7", "8", "9", "A", "B", "C", "D", "E", "F"][n]?).getD "?"

/-- `0xVV`, a channel value `0x00`..`0x3F` (R80). -/
def valueText (v : U6) : String := "0x" ++ hexDigit (v.toNat / 16) ++ hexDigit (v.toNat % 16)

/-- A bit, 0 or 1. -/
def bitText (b : Bit) : String := if b then "1" else "0"

/-- A list in brackets, its elements separated by commas (R80). -/
def listText (xs : List String) : String := "[" ++ String.intercalate "," xs ++ "]"

/-- The name of an error state (R80). -/
def Err.text : Err → String
  | .none => "NONE"
  | .overrun => "OVERRUN"
  | .outOfSync => "OUT_OF_SYNC"

/-- The text of an operation (R80). -/
def TraceOp.text : TraceOp → String
  | .por => "POR"
  | .lrst i => "LRST " ++ decText i.val
  | .enq i c d => "ENQ " ++ decText i.val ++ ", " ++ decText c.toNat ++ ", " ++ decText d.toNat
  | .lstep i v none => "LSTEP " ++ decText i.val ++ ", in=" ++ valueText v
  | .lstep i v (some b) => "LSTEP " ++ decText i.val ++ ", in=" ++ valueText v ++ ", fresh=" ++ bitText b
  | .cycle vs fs => "CYCLE in=" ++ listText (vs.toList.map valueText) ++ ", fresh=" ++ listText (fs.toList.map bitText)
  | .rdstate i => "RDSTATE " ++ decText i.val
  | .rderr i => "RDERR " ++ decText i.val
  | .rdout i => "RDOUT " ++ decText i.val
  | .rdstale i => "RDSTALE " ++ decText i.val
  | .resetall => "RESETALL"
  | .send i d => "SEND " ++ decText i.val ++ ", " ++ decText d.toNat

/-- The text of a result (R80), for the operations whose result the notation writes: `ok` or `fail` for an `ENQ` (and for a `SEND`,
which is one), 0 or 1 for `RDSTALE`. -/
def TraceOp.resultText (op : TraceOp) : Result → String
  | .truth b =>
    match op with
    | .enq .. | .send .. => if b then "ok" else "fail"
    | _ => bitText b
  | .value4 v => decText v.toNat
  | .value6 v => valueText v
  | .errState e => e.text
  | _ => ""

/-- The text of a line (R80). -/
def TraceLine.text (l : TraceLine) : String :=
  (match l.engine with
    | none => ""
    | some .a => "A: "
    | some .b => "B: ") ++ l.op.text ++
  (match l.result with
    | none => ""
    | some r => " -> " ++ l.op.resultText r)

end Sys2Proof.Machine
end

