-- ==== Sys2Proof/Safety.lean ====
section
/-! DEFINITION. The terms in which claims are stated: the invariant of the reachable states (R34), a clean run (R186), which link an
operation concerns (R50, R58), and reachability by the operations R34 names. -/

namespace Sys2Proof

open Machine

/-- The invariants (I-b), (I-c) and (I-d) of R34 for one link, and the range of the age counter (R30). (I-a) is the type `Cursor`. -/
abbrev Machine.LinkState.inv (p : Params) (l : LinkState) : Prop :=
  (l.err = .overrun → l.cursor.val = queueCap) ∧
  (l.err = .none → toggleOf l.out = toggleCommand → 1 ≤ l.cursor.val) ∧
  l.err ≠ .outOfSync ∧
  l.age ≤ p.ageMax

/-- The invariant of the block: parameters within the constraints of R7, and R34 on every link. -/
abbrev Machine.State.inv (s : State) : Prop := s.cfg.wf ∧ ∀ i : Link, (s.link i).inv s.cfg

/-- A request for one of the operations that agents issue (R56, R34): not one of the block's own INTERNAL operations (R78). -/
def Request.external (r : Request) : Bool :=
  match decode r with
  | .ok i => !i.isInternal
  | .error _ => true

/-- The invariant with the premise of R34 on what has been issued. -/
abbrev Machine.State.invIssued (s : State) : Prop := s.inv ∧ ∀ r ∈ s.pending, r.external = true

/-- No error is recorded on link `i`: the notion of a clean link of R186. -/
abbrev Machine.State.clean (i : Link) (s : State) : Prop := (s.link i).err = .none

/-- The age the rule R150 gives: 0 after a fresh value, else one more, up to `AGE_MAX`. Written here from the rule, not from the
model's operation. -/
def Machine.LinkState.ageAfter (p : Params) (fresh : Bit) (l : LinkState) : Nat :=
  if fresh = true then 0 else if l.age + 1 ≤ p.ageMax then l.age + 1 else p.ageMax

/-- A step of the link with this freshness bit finds it live (R12, R152): not stale after the age update. -/
abbrev Machine.LinkState.liveWith (p : Params) (fresh : Bit) (l : LinkState) : Prop := l.ageAfter p fresh < p.expireLimit

/-- Between `s` and `t` nothing changed but link `i` and the last result: no other link, no constant, no pending request (R20). -/
abbrev Machine.State.onlyLink (i : Link) (s t : State) : Prop :=
  (∀ j : Link, j ≠ i → t.link j = s.link j) ∧ t.cfg = s.cfg ∧ t.pending = s.pending

/-- The operation is a processing cycle of link `i` that samples `v` with freshness `f` (R130): an `LSTEP`, the arrival of a half (log
4), or a `CYCLE` with these inputs on the link (R133). -/
abbrev Instr.samples (i : Link) (v : U6) (f : Bit) (ins : Instr) : Prop :=
  ins = .lstep i v f ∨
  (∃ a c, ins = .halfCmd i a c ∧ v = channelEncode a toggleCommand c ∧ f = true) ∨
  (∃ a d, ins = .halfData i a d ∧ v = channelEncode a toggleData d ∧ f = true) ∨
  ∃ vs fs, ins = .cycle vs fs ∧ v = vs[i.val] ∧ f = fs[i.val]

/-- The one link an operation concerns (R50); none for the codec's functions, which concern no link, and for `CYCLE`, `POR` and
`RESETALL`, which concern all. -/
def Instr.linkOf : Instr → Option Link
  | .halfCmd i _ _ | .halfData i _ _ | .ct0 i _ | .ctUpdateState i _ | .ct2 i _ | .ct3 i _ | .ct4 i _ | .ct5 i _ | .ct6 i _
  | .ct7 i _ | .ct8 i _ | .ct9 i _ | .ctA i _ | .ctB i _ | .ctC i _ | .ctD i _ | .ctE i _ | .ctF i _ | .errNone i
  | .errOverrun i | .errOutOfSync i | .enq i _ _ | .qhead i | .deq i | .rxphase i _ _ | .txphase i _ _ | .lstep i _ _
  | .ageupd i _ | .stale i | .lrst i | .rdstate i | .rderr i | .rdout i | .rdstale i | .send i _ => some i
  | .encode _ _ _ | .decode _ | .cycle _ _ | .por | .resetall => none

/-- The states reached from the state after `POR` by any sequence of operations that agents issue, with any inputs (R34). -/
inductive Machine.Reachable (p : Params) : State → Prop where
  | por : Reachable p (State.afterPor p)
  | op (s t : State) (i : Instr) : Reachable p s → i.isInternal = false → exec i s = .next t → Reachable p t

/-- The control projection (`ack`, `toggle`, `cursor`, `err`) of a link (R27, R34). -/
def Machine.LinkState.control (l : LinkState) : Bit × Bit × Cursor × Err := (ackOf l.out, toggleOf l.out, l.cursor, l.err)

/-- The control values R34 lists as reachable: no error with toggle 0 and any cursor, no error with toggle 1 and a cursor of at least
1, or `OVERRUN` with a full queue. -/
def controlReachable (c : Bit × Bit × Cursor × Err) : Bool :=
  match c with
  | (_, toggle, cursor, .none) => toggle == toggleData || decide (1 ≤ cursor.val)
  | (_, _, cursor, .overrun) => cursor.val == queueCap
  | (_, _, _, .outOfSync) => false

/-- Every control value. -/
def allControls : List (Bit × Bit × Cursor × Err) :=
  [false, true].flatMap fun a => [false, true].flatMap fun t =>
    ([0, 1, 2, 3, 4] : List Cursor).flatMap fun c => [Err.none, Err.overrun, Err.outOfSync].map fun e => (a, t, c, e)

end Sys2Proof
end

