-- ==== Sys2Proof/Certificates/Slice0/Obligations.lean ====
section
/-! DEFINITION. The statements for the provers. Each docstring names the rule it formalises; where a clause rests on a choice of the
spec (D<n>) or of the model (log <n>), it says so. -/

open Sys2Proof Sys2Proof.Machine

/-! ## Encodings -/

/-- R90, R91: `ENCODE` returns 32*ack + 16*toggle + payload, a bijection from the fields to `u6`; `DECODE` returns bit 5, bit 4 and
bits 3:0; neither changes state. That the result stands in `result` is the model's choice (log 7). -/
def Obligations.CodecPacksAndSplitsFields : Prop :=
  (∀ (a t : Bit) (p : U4) (s : State), ∃ v : U6,
    exec (.encode a t p) s = .next { s with result := .value6 v } ∧ v.toNat = 32 * a.toNat + 16 * t.toNat + p.toNat) ∧
  (∀ v : U6, ∃! x : Bit × Bit × U4, v.toNat = 32 * x.1.toNat + 16 * x.2.1.toNat + x.2.2.toNat) ∧
  ∀ (v : U6) (s : State), ∃ (a t : Bit) (p : U4),
    exec (.decode v) s = .next { s with result := .fields a t p } ∧
    a.toNat = v.toNat / 32 ∧ t.toNat = v.toNat / 16 % 2 ∧ p.toNat = v.toNat % 16

/-- Words written out from the tables of R72, R74 and R77 decode to the instruction they stand for. The widths that tell the tables
apart are the model's choice (log 3). -/
def Obligations.TableWordsDecode : Prop :=
  decodeTableWord 8 0b00110001 = some (.halfCmd 0 true 0x1#4) ∧
  decodeTableWord 8 0b00010111 = some (.halfCmd 0 false 0x7#4) ∧
  decodeTableWord 8 0b00101010 = some (.halfData 0 true 0xA#4) ∧
  decodeTableWord 8 0b11100101 = some (.halfData 0 true 0x5#4) ∧
  decodeTableWord 8 0b00001011 = some (.ctB 0 0#4) ∧
  decodeTableWord 6 0b000101 = some (.halfData 0 false 0x5#4) ∧
  decodeTableWord 6 0b011111 = some (.halfCmd 0 false 0xF#4) ∧
  decodeTableWord 4 0b0000 = some (.ct0 0 0#4) ∧
  decodeTableWord 4 0b0001 = some (.ctUpdateState 0 0#4) ∧
  decodeTableWord 4 0b1011 = some (.ctB 0 0#4) ∧
  decodeTableWord 4 0b1111 = some (.ctF 0 0#4) ∧
  decodeTableWord 2 0b00 = some (.errNone 0) ∧
  decodeTableWord 2 0b01 = some (.errOverrun 0) ∧
  decodeTableWord 2 0b10 = some (.errOutOfSync 0) ∧
  decodeTableWord 2 0b11 = none

/-- Decode and encode agree: the request of every instruction, with every operand at every value, decodes to that instruction. -/
def Obligations.DecodeOfEncode : Prop := ∀ i : Instr, decode (encode i) = .ok i

/-- The decoder accepts exactly the requests that name an operation of the block: a link that exists, the operation's number of
operands, and no error code 3 (R53(a), R77; the form of a request is the model's choice, log 2). -/
def Obligations.DecodeAcceptsWellFormed : Prop :=
  ∀ r : Request, (∃ i : Instr, decode r = .ok i) ↔ r.wellFormed = true

/-- R75(a), R52: every byte on a link's wire is a half-message, and it reads back as that byte with bits 7:6 zero. -/
def Obligations.EveryWireByteIsAHalf : Prop :=
  ∀ (i : Link) (b : Byte), ∃ ins : Instr,
    decode ⟨.wire, i.val, [b]⟩ = .ok ins ∧ encode ins = ⟨.wire, i.val, [b &&& 0x3F#8]⟩ ∧
    ((b.getLsbD 4 = true ∧ ∃ (a : Bit) (c : U4), ins = .halfCmd i a c) ∨
     (b.getLsbD 4 = false ∧ ∃ (a : Bit) (d : U4), ins = .halfData i a d))

/-! ## The step -/

/-- A step performs the decoded instruction: when the oldest request decodes to `i`, the step is `exec i` on the state without that
request; and with nothing issued the block holds its state (R185). That requests stand in a list is the model's choice (log 1). -/
def Obligations.StepRunsDecodedOrHolds : Prop :=
  (∀ (s : State) (r : Request) (rest : List Request) (i : Instr),
    s.pending = r :: rest → decode r = .ok i → step s = exec i { s with pending := rest }) ∧
  ∀ s : State, s.pending = [] → step s = .next s

/-- The only stops of the machine: a link number that names no link is refused (R53(a), D16), operands in the wrong number are refused
(log 14), the error code 3 is the fault of R77 (log 15). -/
def Obligations.StopsOnlyOnNoOperation : Prop :=
  ∀ (s : State) (r : Request) (rest : List Request), s.pending = r :: rest →
    (r.linkOk = false → step s = .refused .linkOutOfRange) ∧
    (r.linkOk = true → r.operandsOk = false → step s = .refused .operandCount) ∧
    (r.linkOk = true → r.operandsOk = true → r.codeOk = false → step s = .fault .errCodeThree) ∧
    (r.wellFormed = true → ∃ t, step s = .next t)

/-- No operation of the block stops the machine, in any state and with any operands (R2, R56); and none changes the constants (the
model's field `cfg`, log 8) or the requests that wait (the model's field `pending`, log 1), not even a `POR` issued again (log 27). -/
def Obligations.EveryOperationCompletes : Prop :=
  ∀ (i : Instr) (s : State), ∃ t, exec i s = .next t ∧ t.cfg = s.cfg ∧ t.pending = s.pending

/-- R56: issued requests are performed as whole operations in the order in which they were issued, each seeing all effects of the
earlier ones. That they wait in a list is the model's choice (log 1), and so is that a `POR` among them leaves what waits (log 27). -/
def Obligations.RunPerformsIssuedSequence : Prop :=
  ∀ (ops : List Instr) (rest : List Request) (s : State),
    runSteps ops.length { s with pending := ops.map encode ++ rest } =
      execAll ops { s with pending := rest }

/-! ## The Command Queue -/

/-- R101: with no error and a free slot, `ENQ` writes the entry at slot `cursor`, adds 1 to the cursor, changes nothing else, and
returns true. That the result stands in `result` is the model's choice (log 7). -/
def Obligations.EnqueueAppends : Prop :=
  ∀ (s : State) (i : Link) (c d : U4), (s.link i).err = .none → (s.link i).cursor.val < queueCap →
    ∃ t, exec (.enq i c d) s = .next t ∧ s.onlyLink i t ∧ t.result = .truth true ∧
      (t.link i).cursor.val = (s.link i).cursor.val + 1 ∧
      (∀ k : Slot, (t.link i).q[k.val] = if k.val = (s.link i).cursor.val then ⟨c, d⟩ else (s.link i).q[k.val]) ∧
      (t.link i).out = (s.link i).out ∧ (t.link i).lastCmd = (s.link i).lastCmd ∧ (t.link i).rxState = (s.link i).rxState ∧
      (t.link i).err = .none ∧ (t.link i).age = (s.link i).age

/-- R102: on a full queue `ENQ` raises `OVERRUN`, writes no slot, leaves the cursor (D6), and returns false. R106 (D12): on a link in
error it has no effect and returns false. That the result stands in `result` is the model's choice (log 7). -/
def Obligations.EnqueueRefused : Prop :=
  (∀ (s : State) (i : Link) (c d : U4), (s.link i).err = .none → (s.link i).cursor.val = queueCap →
    ∃ t, exec (.enq i c d) s = .next t ∧ s.onlyLink i t ∧ t.result = .truth false ∧
      t.link i = { s.link i with err := .overrun }) ∧
  ∀ (s : State) (i : Link) (c d : U4), (s.link i).err ≠ .none →
    exec (.enq i c d) s = .next { s with result := .truth false }

/-- R101: `ENQ`, normal case: the entry goes to slot `cursor`, the cursor is increased by 1, no other slot and no other register
changes, the entry stands behind those already queued, the result is true. The result is the second component of the operation on the
link. -/
def Obligations.EnqNormalCase : Prop :=
  ∀ (s : State) (i : Link) (c d : U4), (s.link i).err = .none → (s.link i).cursor.val < queueCap →
    ((s.link i).enq ⟨c, d⟩).2 = true ∧
    ∃ t, exec (.enq i c d) s = .next t ∧ (∀ j : Link, j ≠ i → t.link j = s.link j) ∧
      (t.link i).cursor.val = (s.link i).cursor.val + 1 ∧
      (∀ k : Slot, (t.link i).q[k.val] = if k.val = (s.link i).cursor.val then ⟨c, d⟩ else (s.link i).q[k.val]) ∧
      (t.link i).entries = (s.link i).entries ++ [⟨c, d⟩] ∧
      (t.link i).out = (s.link i).out ∧ (t.link i).lastCmd = (s.link i).lastCmd ∧ (t.link i).rxState = (s.link i).rxState ∧
      (t.link i).err = .none ∧ (t.link i).age = (s.link i).age

/-- R80: `SEND i, data` is `ENQ i, CMD_UPDATE_STATE, data`: the entry `(1, data)` is appended to a queue with room, and otherwise the
operation overruns or is dropped as that `ENQ` is. The number 1 is the spec's choice (D5, log 20). -/
def Obligations.SendEnqueuesUpdateState : Prop :=
  ∀ (s : State) (i : Link) (d : U4),
    (∃ t, exec (.send i d) s = .next t ∧ exec (.enq i 0x1#4 d) s = .next t) ∧
    ((s.link i).err = .none → (s.link i).cursor.val < queueCap →
      ∃ t, exec (.send i d) s = .next t ∧ t.result = .truth true ∧ s.onlyLink i t ∧
        (t.link i).entries = (s.link i).entries ++ [⟨0x1#4, d⟩] ∧ (t.link i).out = (s.link i).out)

/-- R103: `QHEAD` returns slot 0, whatever the cursor is, and writes nothing. -/
def Obligations.QheadReadsSlotZero : Prop :=
  ∀ (s : State) (i : Link), exec (.qhead i) s = .next { s with result := .entry (s.link i).q[0] }

/-- R104: with an entry in the queue `DEQ` gives every slot but the last the old value of the slot above it, leaves the last (D11, log
22), takes 1 from the cursor, and changes nothing else. -/
def Obligations.DequeueShifts : Prop :=
  ∀ (s : State) (i : Link), 1 ≤ (s.link i).cursor.val →
    ∃ t, exec (.deq i) s = .next t ∧ s.onlyLink i t ∧ t.result = .nothing ∧
      (t.link i).cursor.val = (s.link i).cursor.val - 1 ∧
      (t.link i).q[0] = (s.link i).q[1] ∧ (t.link i).q[1] = (s.link i).q[2] ∧ (t.link i).q[2] = (s.link i).q[3] ∧
      (t.link i).q[3] = (s.link i).q[3] ∧
      (t.link i).out = (s.link i).out ∧ (t.link i).lastCmd = (s.link i).lastCmd ∧ (t.link i).rxState = (s.link i).rxState ∧
      (t.link i).err = (s.link i).err ∧ (t.link i).age = (s.link i).age

/-- R105: on an empty queue `DEQ` raises `OUT_OF_SYNC` and shifts nothing. -/
def Obligations.DequeueEmptyRaisesOutOfSync : Prop :=
  ∀ (s : State) (i : Link), (s.link i).cursor.val = 0 →
    ∃ t, exec (.deq i) s = .next t ∧ s.onlyLink i t ∧ t.result = .nothing ∧
      t.link i = { s.link i with err := .outOfSync }

/-- The queue is first in, first out (R25, R107): a successful `ENQ` puts its entry after the valid entries, a `DEQ` of a link without
error takes the first of them away. -/
def Obligations.QueueIsFirstInFirstOut : Prop :=
  (∀ (s t : State) (i : Link) (c d : U4), exec (.enq i c d) s = .next t → t.result = .truth true →
    (t.link i).entries = (s.link i).entries ++ [⟨c, d⟩]) ∧
  (∀ (s t : State) (i : Link), (s.link i).err = .none → 1 ≤ (s.link i).cursor.val → exec (.deq i) s = .next t →
    (s.link i).entries = (s.link i).q[0] :: (t.link i).entries)

/-! ## The receive phase -/

/-- R121: a sampled toggle equal to the working copy's ack is no new half: `RXPHASE` writes no register and returns the working copy
unchanged. -/
def Obligations.RxphaseIgnoresOldHalf : Prop :=
  ∀ (s : State) (i : Link) (o v : U6), toggleOf v = ackOf o →
    exec (.rxphase i o v) s = .next { s with result := .value6 o }

/-- R121, R122: the receive phase by its pseudocode, in each of its cases: no new half; a command half, of any type; a data half. In
every case the working copy leaves with its ack equal to the sampled toggle, its toggle and payload as they were. The working copy is
the second component of the operation on the link. -/
def Obligations.RxphaseFollowsPseudocode : Prop :=
  ∀ (s : State) (i : Link) (o v : U6),
    ∃ t, exec (.rxphase i o v) s = .next t ∧ (∀ j : Link, j ≠ i → t.link j = s.link j) ∧
      ((s.link i).rxphase o v).2 = channelEncode (toggleOf v) (toggleOf o) (payloadOf o) ∧
      (toggleOf v = ackOf o → t.link i = s.link i ∧ ((s.link i).rxphase o v).2 = o) ∧
      (toggleOf v ≠ ackOf o → toggleOf v = toggleCommand → t.link i = { s.link i with lastCmd := payloadOf v }) ∧
      (toggleOf v ≠ ackOf o → toggleOf v = toggleData → (s.link i).lastCmd = cmdUpdateState →
        t.link i = { s.link i with rxState := payloadOf v }) ∧
      (toggleOf v ≠ ackOf o → toggleOf v = toggleData → (s.link i).lastCmd ≠ cmdUpdateState → t.link i = s.link i)

/-- R122, with R124: a new command half stores its payload in `last_cmd`, recognised or not, writes no other register, and the working
copy's ack becomes 1. That the working copy stands in `result` is the model's choice (log 7). -/
def Obligations.RxphaseStoresCommand : Prop :=
  ∀ (s : State) (i : Link) (o v : U6), toggleOf v ≠ ackOf o → toggleOf v = toggleCommand →
    ∃ t, exec (.rxphase i o v) s = .next t ∧ s.onlyLink i t ∧
      t.link i = { s.link i with lastCmd := payloadOf v } ∧
      t.result = .value6 (channelEncode true (toggleOf o) (payloadOf o))

/-- R123, with R124: a new data half is stored in `rx_state` when `last_cmd` is `CMD_UPDATE_STATE` (1, the spec's choice D5) and
ignored otherwise; `last_cmd` is kept (D27, log 24); the working copy's ack becomes 0. -/
def Obligations.RxphaseDispatchesData : Prop :=
  ∀ (s : State) (i : Link) (o v : U6), toggleOf v ≠ ackOf o → toggleOf v = toggleData →
    ∃ t, exec (.rxphase i o v) s = .next t ∧ s.onlyLink i t ∧
      t.link i = { s.link i with rxState := if (s.link i).lastCmd = 0x1#4 then payloadOf v else (s.link i).rxState } ∧
      t.result = .value6 (channelEncode false (toggleOf o) (payloadOf o))

/-- R74: when a data half arrives (it is new: the link's ack is 1) on a link whose `last_cmd` is `CMD_UPDATE_STATE` (1, the spec's
choice D5), `CT.UPDATE_STATE` writes its value to `rx_state`, and otherwise nothing (R23); the fifteen other types have no effect on
the block (R75(b)); and the row of the type that is dispatched on writes what `RXPHASE` writes for that half (R123). That a command
type's row is this dispatch is the model's reading (log 5). -/
def Obligations.CommandTypesDispatch : Prop :=
  ∀ (s : State) (i : Link) (d : U4),
    (ackOf (s.link i).out = true → (s.link i).lastCmd = 0x1#4 →
      ∃ t, exec (.ctUpdateState i d) s = .next t ∧ s.onlyLink i t ∧ t.result = .nothing ∧
        t.link i = { s.link i with rxState := d }) ∧
    ((ackOf (s.link i).out = false ∨ (s.link i).lastCmd ≠ 0x1#4) →
      exec (.ctUpdateState i d) s = .next { s with result := .nothing }) ∧
    (∀ ins ∈ [Instr.ct0 i d, .ct2 i d, .ct3 i d, .ct4 i d, .ct5 i d, .ct6 i d, .ct7 i d, .ct8 i d, .ct9 i d, .ctA i d, .ctB i d,
        .ctC i d, .ctD i d, .ctE i d, .ctF i d],
      exec ins s = .next { s with result := .nothing }) ∧
    ∃ t u, exec (commandTypeOf i (s.link i).lastCmd d) s = .next t ∧
      exec (.rxphase i (s.link i).out (channelEncode false toggleData d)) s = .next u ∧ t.links = u.links

/-- R23: `rx_state` is written only by `RXPHASE`, in a data half's new arrival while `last_cmd` is `CMD_UPDATE_STATE`, and by `POR`.
So an operation that changes it is one that samples such a half on a live link without error (`samples`: `LSTEP`, `CYCLE`, and log 4
for the halves), `RXPHASE` itself, or the row of `CMD_UPDATE_STATE` (log 5), and it holds the half's payload. The `POR` value 0 is the
spec's choice (D10, log 10). -/
def Obligations.RxStateWrittenOnlyByReceive : Prop :=
  ∀ (s t : State) (i : Link) (ins : Instr), exec ins s = .next t → (t.link i).rxState ≠ (s.link i).rxState →
    (ins = .por ∧ (t.link i).rxState = 0#4) ∨
    ((s.link i).lastCmd = cmdUpdateState ∧
      ((∃ v f, ins.samples i v f ∧ (s.link i).liveWith s.cfg f ∧ (s.link i).err = .none ∧ toggleOf v = toggleData ∧
          ackOf (s.link i).out = true ∧ (t.link i).rxState = payloadOf v) ∨
        (∃ o v, ins = .rxphase i o v ∧ toggleOf v = toggleData ∧ ackOf o = true ∧ (t.link i).rxState = payloadOf v) ∨
        ∃ d, ins = .ctUpdateState i d ∧ ackOf (s.link i).out = true ∧ (t.link i).rxState = d))

/-! ## The send phase -/

/-- R125: while the neighbour has not acknowledged, and when a data half is acknowledged and the queue is empty, `TXPHASE` changes
nothing. -/
def Obligations.TxphaseBlockedOrIdle : Prop :=
  ∀ (s : State) (i : Link) (o v : U6),
    (ackOf v ≠ toggleOf o ∨ (toggleOf o = toggleData ∧ (s.link i).cursor.val = 0)) →
    exec (.txphase i o v) s = .next { s with result := .sent o false }

/-- R126: with the gate open, toggle 0 and work in the queue, the working copy gets toggle 1 and the head's command type, and no
register changes. This is the only way `out.toggle` of a link goes from 0 to 1: an operation after which it has done so is a
processing cycle of the link (`LSTEP`, `CYCLE`, and log 4 for the halves) that found it live and without error, with the gate open
(the sampled ack was 0, R125) and work in the queue, and it presents the head's command type and leaves the queue. That the working
copy stands in `result` is the model's choice (log 7). -/
def Obligations.TxphaseSendsCommandHalf : Prop :=
  (∀ (s : State) (i : Link) (o v : U6), ackOf v = toggleOf o → toggleOf o = toggleData → (s.link i).cursor.val ≠ 0 →
    exec (.txphase i o v) s = .next { s with result := .sent (channelEncode (ackOf o) true (s.link i).q[0].cmd) false }) ∧
  ∀ (s t : State) (i : Link) (ins : Instr), exec ins s = .next t →
    toggleOf (s.link i).out = toggleData → toggleOf (t.link i).out = toggleCommand →
    (∃ v f,
      (ins = .lstep i v f ∨
        (∃ a c, ins = .halfCmd i a c ∧ v = channelEncode a toggleCommand c ∧ f = true) ∨
        (∃ a d, ins = .halfData i a d ∧ v = channelEncode a toggleData d ∧ f = true) ∨
        ∃ vs fs, ins = .cycle vs fs ∧ v = vs[i.val] ∧ f = fs[i.val]) ∧
      ackOf v = toggleData ∧ (s.link i).liveWith s.cfg f) ∧
    (s.link i).err = .none ∧ (s.link i).cursor.val ≠ 0 ∧ payloadOf (t.link i).out = (s.link i).q[0].cmd ∧
      (t.link i).q = (s.link i).q ∧ (t.link i).cursor = (s.link i).cursor

/-- R128: with the gate open, toggle 1 and an entry in the queue, the working copy gets toggle 0 and the head's data, read before the
shift, and the head is dequeued as by `DEQ`. That the working copy stands in `result` is the model's choice (log 7). -/
def Obligations.TxphaseSendsDataHalf : Prop :=
  ∀ (s : State) (i : Link) (o v : U6), ackOf v = toggleOf o → toggleOf o = toggleCommand → 1 ≤ (s.link i).cursor.val →
    ∃ t u, exec (.txphase i o v) s = .next t ∧ exec (.deq i) s = .next u ∧ t.links = u.links ∧ s.onlyLink i t ∧
      (t.link i).cursor.val = (s.link i).cursor.val - 1 ∧ (t.link i).err = (s.link i).err ∧
      t.result = .sent (channelEncode (ackOf o) false (s.link i).q[0].data) false

/-- R128: sending a data half: with the gate open, toggle 1 and an entry in the queue, the working copy gets toggle 0 and the data
slot 0 held before the shift, the ack as it was, the registers are as `DEQ` leaves them, and no error is raised. The working copy and
`oos` are what the operation on the link returns. -/
def Obligations.TxphaseDataHalfCase : Prop :=
  ∀ (s : State) (i : Link) (o v : U6), ackOf v = toggleOf o → toggleOf o = toggleCommand → 1 ≤ (s.link i).cursor.val →
    ((s.link i).txphase o v).2 = (channelEncode (ackOf o) toggleData (s.link i).q[0].data, false) ∧
    ∃ t u, exec (.txphase i o v) s = .next t ∧ exec (.deq i) s = .next u ∧ t.links = u.links ∧
      (t.link i).err = (s.link i).err

/-- R127: with the gate open, toggle 1 and an empty queue, `OUT_OF_SYNC` is raised and reported, and the working copy gets toggle 0 and
the data of slot 0. -/
def Obligations.TxphaseOutOfSync : Prop :=
  ∀ (s : State) (i : Link) (o v : U6), ackOf v = toggleOf o → toggleOf o = toggleCommand → (s.link i).cursor.val = 0 →
    ∃ t, exec (.txphase i o v) s = .next t ∧ s.onlyLink i t ∧ t.link i = { s.link i with err := .outOfSync } ∧
      t.result = .sent (channelEncode (ackOf o) false (s.link i).q[0].data) true

/-! ## One processing cycle of a link -/

/-- R131: a step that finds the link stale after the age update resets it and does nothing else, whatever the sampled value and the
error state are (R175). The age counter is the spec's choice (D7, log 11), what a reset leaves alone too (D9, log 21). -/
def Obligations.StaleStepResets : Prop :=
  ∀ (s : State) (i : Link) (v : U6) (f : Bit), ¬ (s.link i).liveWith s.cfg f →
    ∃ t, exec (.lstep i v f) s = .next t ∧ s.onlyLink i t ∧ t.result = .nothing ∧
      t.link i = { s.link i with out := 0x00#6, cursor := 0, err := .none, age := (s.link i).ageAfter s.cfg f }

/-- R129: on a live link in an error state a step changes only the age; a link in error that goes stale is reset and leaves the error
state. -/
def Obligations.ErrorGateHolds : Prop :=
  ∀ (s : State) (i : Link) (v : U6) (f : Bit), (s.link i).err ≠ .none →
    ∃ t, exec (.lstep i v f) s = .next t ∧ s.onlyLink i t ∧
      ((s.link i).liveWith s.cfg f → t.link i = { s.link i with age := (s.link i).ageAfter s.cfg f }) ∧
      (¬ (s.link i).liveWith s.cfg f → (t.link i).err = .none ∧ (t.link i).out = 0x00#6 ∧ (t.link i).cursor.val = 0)

/-- R135: the transition table of one `LSTEP` on a live link without error, receive side and send side, out-of-sync with both settings
of `OOS_COMMIT` (D8, log 9). -/
def Obligations.LiveStepFollowsTable : Prop :=
  ∀ (s : State) (i : Link) (v : U6) (f : Bit), (s.link i).liveWith s.cfg f → (s.link i).err = .none →
    ∃ t, exec (.lstep i v f) s = .next t ∧ s.onlyLink i t ∧ t.result = .nothing ∧
      (t.link i).age = (s.link i).ageAfter s.cfg f ∧
      (t.link i).lastCmd =
        (if toggleOf v ≠ ackOf (s.link i).out ∧ toggleOf v = true then payloadOf v else (s.link i).lastCmd) ∧
      (t.link i).rxState =
        (if toggleOf v ≠ ackOf (s.link i).out ∧ toggleOf v = false ∧ (s.link i).lastCmd = 0x1#4 then payloadOf v
         else (s.link i).rxState) ∧
      (if ackOf v ≠ toggleOf (s.link i).out ∨ (toggleOf (s.link i).out = false ∧ (s.link i).cursor.val = 0) then
        (t.link i).out = channelEncode (toggleOf v) (toggleOf (s.link i).out) (payloadOf (s.link i).out) ∧
        (t.link i).q = (s.link i).q ∧ (t.link i).cursor = (s.link i).cursor ∧ (t.link i).err = .none
       else if toggleOf (s.link i).out = false then
        (t.link i).out = channelEncode (toggleOf v) true (s.link i).q[0].cmd ∧
        (t.link i).q = (s.link i).q ∧ (t.link i).cursor = (s.link i).cursor ∧ (t.link i).err = .none
       else if 1 ≤ (s.link i).cursor.val then
        (t.link i).out = channelEncode (toggleOf v) false (s.link i).q[0].data ∧
        (t.link i).q = #v[(s.link i).q[1], (s.link i).q[2], (s.link i).q[3], (s.link i).q[3]] ∧
        (t.link i).cursor.val = (s.link i).cursor.val - 1 ∧ (t.link i).err = .none
       else
        (t.link i).out =
          (if s.cfg.oosCommit = true then channelEncode (toggleOf v) false (s.link i).q[0].data else (s.link i).out) ∧
        (t.link i).q = (s.link i).q ∧ (t.link i).cursor = (s.link i).cursor ∧ (t.link i).err = .outOfSync)

/-- A half-message that arrives on a link is the step that samples it, freshly received: the model's reading (log 4). On a link
without error, in a state that meets R34 (I-c), a command half is stored if it is new (R122), acknowledged in either case (R124), and
leaves `rx_state` alone. -/
def Obligations.HalfCmdStoredAndAcknowledged : Prop :=
  ∀ (s : State) (i : Link) (a : Bit) (c : U4),
    (∃ t, exec (.halfCmd i a c) s = .next t ∧ exec (.lstep i (channelEncode a true c) true) s = .next t) ∧
    (s.cfg.wf → (s.link i).err = .none → (toggleOf (s.link i).out = true → 1 ≤ (s.link i).cursor.val) →
      ∃ t, exec (.halfCmd i a c) s = .next t ∧ s.onlyLink i t ∧
        (t.link i).lastCmd = (if ackOf (s.link i).out = false then c else (s.link i).lastCmd) ∧
        (t.link i).rxState = (s.link i).rxState ∧ ackOf (t.link i).out = true ∧ (t.link i).err = .none ∧ (t.link i).age = 0)

/-- As above, for a data half: dispatched if it is new (R123), acknowledged in either case (R124); `last_cmd` is kept (D27). -/
def Obligations.HalfDataDispatchedAndAcknowledged : Prop :=
  ∀ (s : State) (i : Link) (a : Bit) (d : U4),
    (∃ t, exec (.halfData i a d) s = .next t ∧ exec (.lstep i (channelEncode a false d) true) s = .next t) ∧
    (s.cfg.wf → (s.link i).err = .none → (toggleOf (s.link i).out = true → 1 ≤ (s.link i).cursor.val) →
      ∃ t, exec (.halfData i a d) s = .next t ∧ s.onlyLink i t ∧
        (t.link i).rxState =
          (if ackOf (s.link i).out = true ∧ (s.link i).lastCmd = 0x1#4 then d else (s.link i).rxState) ∧
        (t.link i).lastCmd = (s.link i).lastCmd ∧ ackOf (t.link i).out = false ∧ (t.link i).err = .none ∧ (t.link i).age = 0)

/-- R138(c), R62(a): while the sampled ack does not match the toggle of a live link, the step keeps the toggle and the payload on the
wire, the queue and the cursor. -/
def Obligations.SenderHoldsUntilAcknowledged : Prop :=
  ∀ (s : State) (i : Link) (v : U6) (f : Bit), (s.link i).liveWith s.cfg f → ackOf v ≠ toggleOf (s.link i).out →
    ∃ t, exec (.lstep i v f) s = .next t ∧
      toggleOf (t.link i).out = toggleOf (s.link i).out ∧ payloadOf (t.link i).out = payloadOf (s.link i).out ∧
      (t.link i).q = (s.link i).q ∧ (t.link i).cursor = (s.link i).cursor ∧ (t.link i).err = (s.link i).err

/-- R138(d), R62(b): a half sampled in two successive steps of a live link is acted on once: the second step writes neither `last_cmd`
nor `rx_state`, and leaves the ack as the first left it. -/
def Obligations.SampledTwiceActsOnce : Prop :=
  ∀ (s t : State) (i : Link) (v : U6) (f g : Bit), (s.link i).liveWith s.cfg f → (t.link i).liveWith t.cfg g →
    exec (.lstep i v f) s = .next t → (t.link i).err = .none →
    ∃ u, exec (.lstep i v g) t = .next u ∧ (u.link i).lastCmd = (t.link i).lastCmd ∧ (u.link i).rxState = (t.link i).rxState ∧
      ((u.link i).err = .none → ackOf (u.link i).out = ackOf (t.link i).out)

/-- R63: on a live link without error and with an entry queued, two steps that each sample the awaited ack dequeue: in the first when
a command half is on the wire, in the second when it is not. -/
def Obligations.TwoAcknowledgedStepsDequeue : Prop :=
  ∀ (s : State) (i : Link) (v w : U6) (f g : Bit), (s.link i).err = .none → 1 ≤ (s.link i).cursor.val →
    (s.link i).liveWith s.cfg f → ackOf v = toggleOf (s.link i).out →
    ∃ t, exec (.lstep i v f) s = .next t ∧
      (toggleOf (s.link i).out = toggleCommand → (t.link i).cursor.val = (s.link i).cursor.val - 1) ∧
      (toggleOf (s.link i).out = toggleData → (t.link i).liveWith t.cfg g → ackOf w = toggleOf (t.link i).out →
        ∃ u, exec (.lstep i w g) t = .next u ∧ (u.link i).cursor.val = (s.link i).cursor.val - 1)

/-- R203: on an idle live link a step changes nothing but the age. -/
def Obligations.IdleStepChangesOnlyAge : Prop :=
  ∀ (s : State) (i : Link) (v : U6) (f : Bit), (s.link i).liveWith s.cfg f → (s.link i).idle v = true →
    ∃ t, exec (.lstep i v f) s = .next t ∧ s.onlyLink i t ∧
      t.link i = { s.link i with age := (s.link i).ageAfter s.cfg f }

/-- R133: `CYCLE` performs the `LSTEP` of every link with the link's own inputs, each as if it were performed alone. -/
def Obligations.CycleStepsEveryLink : Prop :=
  ∀ (s : State) (vs : Vector U6 nLinks) (fs : Vector Bit nLinks), ∃ t, exec (.cycle vs fs) s = .next t ∧
    t.cfg = s.cfg ∧ t.pending = s.pending ∧ t.result = .nothing ∧
    ∀ i : Link, ∃ u, exec (.lstep i vs[i.val] fs[i.val]) s = .next u ∧ t.link i = u.link i

/-- R58: `CYCLE` gives the same state whatever order it visits the links in. -/
def Obligations.CycleOrderImmaterial : Prop :=
  ∀ (s : State) (vs : Vector U6 nLinks) (fs : Vector Bit nLinks) (order : List Link), order.Perm allLinks →
    ∃ t, exec (.cycle vs fs) s = .next t ∧ execAll (order.map fun i => .lstep i vs[i.val] fs[i.val]) s = .next t

/-! ## The supervisor and the host reads -/

/-- R150: `AGEUPD` clears the age on a fresh value, else adds 1 up to `AGE_MAX`, and writes nothing else. The counter is the spec's
choice (D7, log 11). -/
def Obligations.AgeupdCountsUpToMax : Prop :=
  ∀ (s : State) (i : Link),
    (∃ t, exec (.ageupd i true) s = .next t ∧ s.onlyLink i t ∧ t.result = .nothing ∧ t.link i = { s.link i with age := 0 }) ∧
    (∃ t, exec (.ageupd i false) s = .next t ∧ s.onlyLink i t ∧ t.result = .nothing ∧
      t.link i = { s.link i with age := min ((s.link i).age + 1) s.cfg.ageMax })

/-- R158 to R161, R152: the reads return `rx_state`, `err`, `out`, and whether the present age is at or above `EXPIRE_LIMIT`, as
`STALE` does, and change no state of the block (R55). `RDOUT` and `RDSTALE` are the spec's choice (D22, log 31), the age too (D7,
log 11), and that the value read stands in `result` is the model's (log 7). -/
def Obligations.HostReadsReturnRegisters : Prop :=
  ∀ (s : State) (i : Link),
    exec (.rdstate i) s = .next { s with result := .value4 (s.link i).rxState } ∧
    exec (.rderr i) s = .next { s with result := .errState (s.link i).err } ∧
    exec (.rdout i) s = .next { s with result := .value6 (s.link i).out } ∧
    exec (.stale i) s = .next { s with result := .truth (decide ((s.link i).age ≥ s.cfg.expireLimit)) } ∧
    exec (.rdstale i) s = .next { s with result := .truth (decide ((s.link i).age ≥ s.cfg.expireLimit)) }

/-- R77: the codes 0, 1, 2 on `err_o` are those of `NONE`, `OVERRUN`, `OUT_OF_SYNC` (D6). That a code's row is the observation of that
code is the model's reading (log 6). -/
def Obligations.ErrorCodesObserved : Prop :=
  ∀ (s : State) (i : Link),
    exec (.errNone i) s = .next { s with result := .truth (decide ((s.link i).err = .none)) } ∧
    exec (.errOverrun i) s = .next { s with result := .truth (decide ((s.link i).err = .overrun)) } ∧
    exec (.errOutOfSync i) s = .next { s with result := .truth (decide ((s.link i).err = .outOfSync)) } ∧
    (s.outputs i).errO.toNat = (match (s.link i).err with | .none => 0 | .overrun => 1 | .outOfSync => 2)

/-- R154: `LRST` sets the cursor to 0, the error to `NONE` and `out` to `0x00`, and writes nothing else (D9, log 21); done twice it is
as done once. R80: `RESETALL` resets every link so, as its expansion `LRST 0; ...; LRST 5` does. -/
def Obligations.LrstAndResetallReset : Prop :=
  (∀ (s : State) (i : Link),
    ∃ t, exec (.lrst i) s = .next t ∧ s.onlyLink i t ∧ t.result = .nothing ∧
      t.link i = { s.link i with out := 0x00#6, cursor := 0, err := .none } ∧
      exec (.lrst i) t = .next t) ∧
  ∀ s : State, ∃ t, exec .resetall s = .next t ∧
    execAll [.lrst 0, .lrst 1, .lrst 2, .lrst 3, .lrst 4, .lrst 5] s = .next t ∧
    t.cfg = s.cfg ∧ t.pending = s.pending ∧
    ∀ i : Link, t.link i = { s.link i with out := 0x00#6, cursor := 0, err := .none }

/-- R156: `POR` gives every register of every link the value of R32's table, from any state. The values of `last_cmd`, `rx_state` and
the slots are the spec's choice (D10, log 10), that of `age` too (D7, log 11). That the constants and the requests that wait stay as
they are is the model's choice (log 8, log 27). -/
def Obligations.PorSetsEveryRegister : Prop :=
  ∀ s : State, ∃ t, exec .por s = .next t ∧ t.cfg = s.cfg ∧ t.pending = s.pending ∧ t.result = .nothing ∧
    ∀ i : Link, (t.link i).out = 0x00#6 ∧ (t.link i).cursor.val = 0 ∧ (t.link i).err = .none ∧ (t.link i).lastCmd = 0#4 ∧
      (t.link i).rxState = 0#4 ∧ (∀ k : Slot, (t.link i).q[k.val] = ⟨0#4, 0#4⟩) ∧ (t.link i).age = 2 ^ s.cfg.ageW - 1

/-- R32, R201: what reset leaves: every link presents `0x00`, its queue is empty, it is in no error (the source's values); `last_cmd`,
`rx_state`, the slots (D10, log 10) and the age `AGE_MAX` (D7, log 11) are the spec's choice, and by D7 the link is stale. Nothing is
issued (log 1), and the constants meet R7 (log 8). -/
def Obligations.ResetStateFollowsTable : Prop :=
  State.reset.pending = [] ∧ State.reset.cfg.wf ∧
  ∀ i : Link, (State.reset.link i).out = 0x00#6 ∧ (State.reset.link i).cursor.val = 0 ∧ (State.reset.link i).err = .none ∧
    (State.reset.link i).lastCmd = 0#4 ∧ (State.reset.link i).rxState = 0#4 ∧
    (∀ k : Slot, (State.reset.link i).q[k.val] = ⟨0#4, 0#4⟩) ∧ (State.reset.link i).age = 2 ^ State.reset.cfg.ageW - 1 ∧
    State.reset.cfg.expireLimit ≤ (State.reset.link i).age

/-! ## Links do not interact -/

/-- R20: an operation on one link reads and writes no state of another: every other link, the constants and the requests that wait
are as before; and what it does to its own link does not depend on the others. -/
def Obligations.OperationTouchesOnlyItsLink : Prop :=
  ∀ (ins : Instr) (i : Link), ins.linkOf = some i →
    (∀ s t : State, exec ins s = .next t → s.onlyLink i t) ∧
    (∀ s s' t t' : State, exec ins s = .next t → exec ins s' = .next t' → s.link i = s'.link i → s.cfg = s'.cfg →
      t.link i = t'.link i ∧ t.result = t'.result)

/-- R58: operations on different links commute: in either order the links end the same, and each returns the same result. -/
def Obligations.DifferentLinksCommute : Prop :=
  ∀ (x y : Instr) (i j : Link), x.linkOf = some i → y.linkOf = some j → i ≠ j →
    ∀ s : State, ∃ sx sy sxy syx : State, exec x s = .next sx ∧ exec y s = .next sy ∧ exec y sx = .next sxy ∧
      exec x sy = .next syx ∧ sxy.links = syx.links ∧ sxy.result = sy.result ∧ syx.result = sx.result

/-! ## Error states -/

/-- R28, R136: an operation that agents issue never takes a link from one error state to the other, and takes it out of an error state
only by a reset of the link, which leaves `out` at `0x00` and the cursor at 0: `LRST`, `POR`, `RESETALL`, or a step of the link. -/
def Obligations.ErrorsStickUntilReset : Prop :=
  ∀ (s t : State) (i : Link) (ins : Instr), exec ins s = .next t → ins.isInternal = false → (s.link i).err ≠ .none →
    (t.link i).err = (s.link i).err ∨
    ((t.link i).err = .none ∧ (t.link i).out = 0x00#6 ∧ (t.link i).cursor.val = 0 ∧
      (ins = .lrst i ∨ ins = .por ∨ ins = .resetall ∨ (∃ v f, ins = .lstep i v f) ∨ (∃ vs fs, ins = .cycle vs fs) ∨
        (∃ a c, ins = .halfCmd i a c) ∨ (∃ a d, ins = .halfData i a d)))

/-- R28, R170: `OVERRUN` is set only by an `ENQ` (or the `SEND` that is one) on a full queue of a link without error, and it changes
exactly `err` (R176). -/
def Obligations.OverrunOnlyByEnqueue : Prop :=
  ∀ (s t : State) (i : Link) (ins : Instr), exec ins s = .next t → (s.link i).err ≠ .overrun → (t.link i).err = .overrun →
    (s.link i).err = .none ∧ (s.link i).cursor.val = queueCap ∧ t.link i = { s.link i with err := .overrun } ∧
      ((∃ c d, ins = .enq i c d) ∨ (∃ d, ins = .send i d))

/-- R28, R170: `OUT_OF_SYNC` is set only by a dequeue on an empty queue: by `DEQ`, by `TXPHASE` with the gate open and toggle 1, or by
a processing cycle of the link (`LSTEP`, `CYCLE`, and log 4 for the halves) that finds it live and without error, a command half on
the wire and the sampled ack 1; the queue is left as it was (R105). -/
def Obligations.OutOfSyncOnlyByDequeue : Prop :=
  ∀ (s t : State) (i : Link) (ins : Instr), exec ins s = .next t → (s.link i).err ≠ .outOfSync → (t.link i).err = .outOfSync →
    (s.link i).cursor.val = 0 ∧ (t.link i).cursor.val = 0 ∧ (t.link i).q = (s.link i).q ∧
      (ins = .deq i ∨ (∃ o v, ins = .txphase i o v ∧ toggleOf o = toggleCommand ∧ ackOf v = true) ∨
        ∃ v f,
          (ins = .lstep i v f ∨
            (∃ a c, ins = .halfCmd i a c ∧ v = channelEncode a toggleCommand c ∧ f = true) ∨
            (∃ a d, ins = .halfData i a d ∧ v = channelEncode a toggleData d ∧ f = true) ∨
            ∃ vs fs, ins = .cycle vs fs ∧ v = vs[i.val] ∧ f = fs[i.val]) ∧
          (s.link i).liveWith s.cfg f ∧ (s.link i).err = .none ∧ toggleOf (s.link i).out = toggleCommand ∧ ackOf v = true)

/-! ## Invariants -/

/-- R34: the invariants (I-b), (I-c), (I-d), the range of the age (R30) and the constraints of R7 hold at reset. -/
def Obligations.InvariantAtReset : Prop := State.reset.invIssued

/-- R34: from every state that meets them, while what is issued are operations of the agents (R56), every step keeps them. So
`OUT_OF_SYNC` is never reached (I-d). -/
def Obligations.StepKeepsInvariant : Prop :=
  ∀ s t : State, s.invIssued → step s = .next t → t.invIssued

/-- R34: with any parameters R7 allows, the control projection of a link takes, over all states reached from `POR` by the agents'
operations, exactly the values R34 lists, and these are 22. -/
def Obligations.ControlStatesReached : Prop :=
  (∀ p : Params, p.wf → ∀ (i : Link) (c : Bit × Bit × Cursor × Err),
    (∃ s : State, Reachable p s ∧ (s.link i).control = c) ↔ controlReachable c = true) ∧
  (∀ c, c ∈ allControls) ∧ allControls.Nodup ∧ (allControls.filter controlReachable).length = 22

/-! ## Hazards and the signal-level view -/

/-- R212(a): a link that last consumed a command half of type `CMD_UPDATE_STATE` takes the `0x00` of a neighbour that was reset as a
data half: `rx_state` becomes 0, the half is acknowledged, and no error is raised. -/
def Obligations.ResetNeighbourDeliversZero : Prop :=
  ∀ (s : State) (i : Link), s.cfg.wf → (s.link i).err = .none → ackOf (s.link i).out = true → (s.link i).lastCmd = 0x1#4 →
    ∃ t, exec (.lstep i 0x00#6 true) s = .next t ∧ s.onlyLink i t ∧ (t.link i).rxState = 0#4 ∧
      ackOf (t.link i).out = false ∧ (t.link i).err = .none ∧ (t.link i).lastCmd = 0x1#4

/-- R212(b) and (c): after its own reset a link consumes a command half again that it may have consumed before, and never consumes a
data half that was on the wire, whose sender goes on as if it were acknowledged. That a half is the fresh step that samples it is the
model's reading (log 4); that `last_cmd` and `rx_state` survive the reset is the spec's choice (D9, log 21). -/
def Obligations.ResetReceiverRepeatsOrLosesHalf : Prop :=
  ∀ (s : State) (i : Link) (a : Bit) (x : U4), s.cfg.wf →
    (∃ t, execAll [.lrst i, .halfCmd i a x] s = .next t ∧ (t.link i).lastCmd = x ∧ ackOf (t.link i).out = true ∧
      (t.link i).rxState = (s.link i).rxState ∧ (t.link i).err = .none) ∧
    (∃ t, execAll [.lrst i, .halfData i a x] s = .next t ∧ (t.link i).lastCmd = (s.link i).lastCmd ∧
      (t.link i).rxState = (s.link i).rxState ∧ ackOf (t.link i).out = false ∧ (t.link i).err = .none ∧
      ackOf (t.link i).out = toggleOf (channelEncode a false x))

/-- R213: an entry enqueued on a link whose next step finds it stale is accepted and then discarded unsent, without an error. -/
def Obligations.StaleLinkSwallowsWork : Prop :=
  ∀ (s : State) (i : Link) (c d : U4) (v : U6) (f : Bit), (s.link i).err = .none → (s.link i).cursor.val < queueCap →
    ¬ (s.link i).liveWith s.cfg f →
    ∃ t u, exec (.enq i c d) s = .next t ∧ t.result = .truth true ∧ exec (.lstep i v f) t = .next u ∧
      (u.link i).entries = [] ∧ (u.link i).err = .none ∧ (u.link i).out = 0x00#6

/-- R57: a clock of the signal-level view performs `POR` and nothing else, or for each link `LRST`, then `ENQ`, then the `LSTEP`, as its
strobes say; `enq_ok` is that `ENQ`'s result. The view is the spec's choice (D2, log 17). -/
def Obligations.ClockPerformsStrobesInOrder : Prop :=
  ∀ (p : PortsIn) (s : State), s.pending = [] →
    ∃ t, runSteps p.ops.length (s.clock p) = .next t ∧ t.pending = [] ∧ t.cfg = s.cfg ∧
      (p.por = true → t.links = (State.afterPor s.cfg).links) ∧
      (p.por = false → ∀ i : Link, ∃ l₁ l₂ : LinkState,
        l₁ = (if p.links[i.val].rstReq = true then { s.link i with out := 0x00#6, cursor := 0, err := .none } else s.link i) ∧
        (if p.links[i.val].enqValid = true then
          l₂ = (l₁.enq ⟨p.links[i.val].enqCmd, p.links[i.val].enqData⟩).1 ∧
          p.enqOk i (s.link i) = some (l₁.enq ⟨p.links[i.val].enqCmd, p.links[i.val].enqData⟩).2
         else l₂ = l₁ ∧ p.enqOk i (s.link i) = none) ∧
        t.link i = (if p.tick = true then l₂.lstep s.cfg p.links[i.val].inValue p.links[i.val].inFresh else l₂))

/-! ## Two engines -/

/-- R137: the source's example, on two engines after `POR` with any parameters R7 allows. -/
def Obligations.ExampleExchange : Prop :=
  ∀ p : Params, p.wf → ∀ a : State, exec (.enq 0 0x1#4 0x2#4) (State.afterPor p) = .next a →
    ∀ e : Engines, e = ⟨a, State.afterPor p⟩ →
      ((e.round 0 0).a.link 0).out = 0x11#6 ∧ ((e.round 0 0).b.link 0).out = 0x20#6 ∧
      ((e.round 0 0).b.link 0).lastCmd = 0x1#4 ∧
      (((e.round 0 0).round 0 0).a.link 0).out = 0x02#6 ∧ (((e.round 0 0).round 0 0).a.link 0).cursor.val = 0 ∧
      (((e.round 0 0).round 0 0).b.link 0).out = 0x00#6 ∧ (((e.round 0 0).round 0 0).b.link 0).rxState = 0x2#4 ∧
      ((((e.round 0 0).round 0 0).round 0 0).a.link 0).out = 0x02#6

/-- R138(a), R225(b): over the reciprocating channel (R64: the premise on the channel, D20, log 18), from two ends that
present data halves and are in step (B's ack), with nothing to send at B, a queue of `n` entries drains in `2n` rounds, and the pairs
B's receive phase observes are the queued entries, in order, each once. No error is raised. -/
def Obligations.ReciprocatingRoundTrip : Prop :=
  ∀ (i j : Link) (e : Engines), e.a.cfg.wf → e.b.cfg.wf →
    (e.a.link i).err = .none → toggleOf (e.a.link i).out = toggleData →
    (e.b.link j).err = .none → toggleOf (e.b.link j).out = toggleData → ackOf (e.b.link j).out = false →
    (e.b.link j).cursor.val = 0 →
    (e.rounds i j (2 * (e.a.link i).cursor.val)).1 = (e.a.link i).entries ∧
    ((e.rounds i j (2 * (e.a.link i).cursor.val)).2.a.link i).cursor.val = 0 ∧
    ((e.rounds i j (2 * (e.a.link i).cursor.val)).2.a.link i).err = .none ∧
    ((e.rounds i j (2 * (e.a.link i).cursor.val)).2.b.link j).err = .none

/-- R64 (the premise on the channel, D20, log 18): the reciprocating channel is the special case of the sampled register in which each
step reads the value presented last; and whatever an engine does, a step that samples, or another operation of an agent on either end
(a reset among them), the value its end presents afterwards is the last its neighbour may sample. -/
def Obligations.ReciprocatingIsSampled : Prop :=
  (∀ (i j : Link) (f : Bit) (c : Joined .sampledRegister),
    c.ba.values.getLast? = some (c.engines.b.link j).out → c.ba.seen < c.ba.values.length →
    ∃ d : Joined .sampledRegister, c.lstepA i (c.ba.values.length - 1) f = some d ∧ d.engines = c.engines.lstepA i j f ∧
      d.ab.values.getLast? = some (d.engines.a.link i).out ∧ c.ba.seen ≤ d.ba.seen ∧ d.ba.values = c.ba.values) ∧
  (∀ (i : Link) (op : Instr) (c d : Joined .sampledRegister), c.opA i op = some d →
    (∀ v f, ¬ op.samples i v f) ∧ exec op c.engines.a = .next d.engines.a ∧ d.engines.b = c.engines.b ∧
    d.ab.values = c.ab.values ++ [(d.engines.a.link i).out] ∧ d.ba = c.ba) ∧
  ∀ (j : Link) (op : Instr) (c d : Joined .sampledRegister), c.opB j op = some d →
    (∀ v f, ¬ op.samples j v f) ∧ exec op c.engines.b = .next d.engines.b ∧ d.engines.a = c.engines.a ∧
    d.ba.values = c.ba.values ++ [(d.engines.b.link j).out] ∧ d.ab = c.ab
end

