-- ==== Sys2Proof/Laws/Codec.lean ====
section
/-! SUPPORT. The small lemmas of the codec and the operand forms: reading a field of a value made from fields. -/

namespace Sys2Proof.Machine

@[simp] theorem ackOf_channelEncode (a t : Bit) (p : U4) : ackOf (channelEncode a t p) = a := by
  revert a t p; decide

@[simp] theorem toggleOf_channelEncode (a t : Bit) (p : U4) : toggleOf (channelEncode a t p) = t := by
  revert a t p; decide

@[simp] theorem payloadOf_channelEncode (a t : Bit) (p : U4) : payloadOf (channelEncode a t p) = p := by
  revert a t p; decide

@[simp] theorem channelEncode_fields (v : U6) : channelEncode (ackOf v) (toggleOf v) (payloadOf v) = v := by
  revert v; decide

/-- Two channel values with the same fields are the same (R92). -/
theorem channel_ext {v w : U6} (ha : ackOf v = ackOf w) (ht : toggleOf v = toggleOf w) (hp : payloadOf v = payloadOf w) :
    v = w := by
  rw [← channelEncode_fields v, ← channelEncode_fields w, ha, ht, hp]

@[simp] theorem ackOf_withAck (o : U6) (t : Bit) : ackOf (withAck o t) = t := ackOf_channelEncode ..
@[simp] theorem toggleOf_withAck (o : U6) (t : Bit) : toggleOf (withAck o t) = toggleOf o := toggleOf_channelEncode ..
@[simp] theorem payloadOf_withAck (o : U6) (t : Bit) : payloadOf (withAck o t) = payloadOf o := payloadOf_channelEncode ..
@[simp] theorem ackOf_withToggle (o : U6) (t : Bit) : ackOf (withToggle o t) = ackOf o := ackOf_channelEncode ..
@[simp] theorem toggleOf_withToggle (o : U6) (t : Bit) : toggleOf (withToggle o t) = t := toggleOf_channelEncode ..
@[simp] theorem payloadOf_withToggle (o : U6) (t : Bit) : payloadOf (withToggle o t) = payloadOf o := payloadOf_channelEncode ..
@[simp] theorem ackOf_withPayload (o : U6) (p : U4) : ackOf (withPayload o p) = ackOf o := ackOf_channelEncode ..
@[simp] theorem toggleOf_withPayload (o : U6) (p : U4) : toggleOf (withPayload o p) = toggleOf o := toggleOf_channelEncode ..
@[simp] theorem payloadOf_withPayload (o : U6) (p : U4) : payloadOf (withPayload o p) = p := payloadOf_channelEncode ..

@[simp] theorem trunc1_byteOfBit (b : Bit) : trunc1 (byteOfBit b) = b := by cases b <;> rfl
@[simp] theorem trunc2_byteOfU2 (v : U2) : trunc2 (byteOfU2 v) = v := by revert v; decide
@[simp] theorem trunc4_byteOfU4 (v : U4) : trunc4 (byteOfU4 v) = v := by revert v; decide
@[simp] theorem trunc6_byteOfU6 (v : U6) : trunc6 (byteOfU6 v) = v := by revert v; decide

@[simp] theorem ofByte_toByte (e : Entry) : Entry.ofByte e.toByte = e := by
  cases e with
  | mk c d => revert c d; decide

/-- The code of an error state reads back (R77). -/
@[simp] theorem ofCode_code (e : Err) : Err.ofCode e.code = some e := by cases e <;> rfl

end Sys2Proof.Machine
end

