-- ==== Sys2Proof/Laws/State.lean ====
section
/-! SUPPORT. One lemma per field per update of the state, and reading a link after writing one. -/

namespace Sys2Proof.Machine

/-! ## `answer` and `setLink`, field by field -/

@[simp] theorem answer_links (r : Result) (s : State) : (s.answer r).links = s.links := rfl
@[simp] theorem answer_cfg (r : Result) (s : State) : (s.answer r).cfg = s.cfg := rfl
@[simp] theorem answer_result (r : Result) (s : State) : (s.answer r).result = r := rfl
@[simp] theorem answer_pending (r : Result) (s : State) : (s.answer r).pending = s.pending := rfl
@[simp] theorem answer_link (r : Result) (s : State) (i : Link) : (s.answer r).link i = s.link i := rfl

@[simp] theorem setLink_cfg (i : Link) (l : LinkState) (s : State) : (s.setLink i l).cfg = s.cfg := rfl
@[simp] theorem setLink_result (i : Link) (l : LinkState) (s : State) : (s.setLink i l).result = s.result := rfl
@[simp] theorem setLink_pending (i : Link) (l : LinkState) (s : State) : (s.setLink i l).pending = s.pending := rfl

@[simp] theorem link_setLink_self (i : Link) (l : LinkState) (s : State) : (s.setLink i l).link i = l := by
  simp [State.link, State.setLink]

@[simp] theorem link_setLink_ne {i j : Link} (h : j ≠ i) (l : LinkState) (s : State) : (s.setLink i l).link j = s.link j := by
  have : i.val ≠ j.val := fun e => h (Fin.ext e.symm)
  simp [State.link, State.setLink, Vector.getElem_set_ne, this]

theorem link_setLink (i j : Link) (l : LinkState) (s : State) :
    (s.setLink i l).link j = if j = i then l else s.link j := by
  split
  · subst j; simp
  · next h => simp [h]

@[simp] theorem setLink_link (i : Link) (s : State) : s.setLink i (s.link i) = s := by
  simp [State.link, State.setLink]

/-- Two states whose links agree one by one have the same links. -/
theorem links_ext {s t : State} (h : ∀ i : Link, s.link i = t.link i) : s.links = t.links :=
  Vector.ext fun k hk => h ⟨k, hk⟩

/-! ## `onLink` and `forEachLink` -/

@[simp] theorem onLink_cfg (i : Link) (f : LinkState → LinkState) (s : State) : (s.onLink i f).cfg = s.cfg := rfl
@[simp] theorem onLink_result (i : Link) (f : LinkState → LinkState) (s : State) : (s.onLink i f).result = s.result := rfl
@[simp] theorem onLink_pending (i : Link) (f : LinkState → LinkState) (s : State) : (s.onLink i f).pending = s.pending := rfl

@[simp] theorem link_onLink_self (i : Link) (f : LinkState → LinkState) (s : State) : (s.onLink i f).link i = f (s.link i) :=
  link_setLink_self ..

@[simp] theorem link_onLink_ne {i j : Link} (h : j ≠ i) (f : LinkState → LinkState) (s : State) :
    (s.onLink i f).link j = s.link j := link_setLink_ne h ..

@[simp] theorem forEachLink_cfg (f : Link → LinkState → LinkState) (s : State) : (s.forEachLink f).cfg = s.cfg := rfl
@[simp] theorem forEachLink_result (f : Link → LinkState → LinkState) (s : State) : (s.forEachLink f).result = s.result := rfl
@[simp] theorem forEachLink_pending (f : Link → LinkState → LinkState) (s : State) : (s.forEachLink f).pending = s.pending := rfl

/-- `forEachLink` does its operation on every link, each from the link's own state. -/
@[simp] theorem link_forEachLink (f : Link → LinkState → LinkState) (s : State) (i : Link) :
    (s.forEachLink f).link i = f i (s.link i) := by
  simp only [State.forEachLink, allLinks, List.foldl_cons, List.foldl_nil, State.onLink, link_setLink]
  fin_cases i <;> rfl

/-! ## The state after `POR` -/

@[simp] theorem afterPor_link (p : Params) (i : Link) : (State.afterPor p).link i = LinkState.afterPor p := by
  simp [State.link, State.afterPor]

@[simp] theorem afterPor_cfg (p : Params) : (State.afterPor p).cfg = p := rfl
@[simp] theorem afterPor_pending (p : Params) : (State.afterPor p).pending = [] := rfl
@[simp] theorem afterPor_result (p : Params) : (State.afterPor p).result = .nothing := rfl

/-! ## `lrst`, `raise`, `ageupd`, `dispatch`, field by field -/

@[simp] theorem raise_out (e : Err) (l : LinkState) : (l.raise e).out = l.out := rfl
@[simp] theorem raise_lastCmd (e : Err) (l : LinkState) : (l.raise e).lastCmd = l.lastCmd := rfl
@[simp] theorem raise_rxState (e : Err) (l : LinkState) : (l.raise e).rxState = l.rxState := rfl
@[simp] theorem raise_q (e : Err) (l : LinkState) : (l.raise e).q = l.q := rfl
@[simp] theorem raise_cursor (e : Err) (l : LinkState) : (l.raise e).cursor = l.cursor := rfl
@[simp] theorem raise_err (e : Err) (l : LinkState) : (l.raise e).err = e := rfl
@[simp] theorem raise_age (e : Err) (l : LinkState) : (l.raise e).age = l.age := rfl

@[simp] theorem lrst_out (l : LinkState) : l.lrst.out = 0x00#6 := rfl
@[simp] theorem lrst_lastCmd (l : LinkState) : l.lrst.lastCmd = l.lastCmd := rfl
@[simp] theorem lrst_rxState (l : LinkState) : l.lrst.rxState = l.rxState := rfl
@[simp] theorem lrst_q (l : LinkState) : l.lrst.q = l.q := rfl
@[simp] theorem lrst_cursor (l : LinkState) : l.lrst.cursor = 0 := rfl
@[simp] theorem lrst_err (l : LinkState) : l.lrst.err = .none := rfl
@[simp] theorem lrst_age (l : LinkState) : l.lrst.age = l.age := rfl

@[simp] theorem ageupd_out (p : Params) (f : Bit) (l : LinkState) : (l.ageupd p f).out = l.out := rfl
@[simp] theorem ageupd_lastCmd (p : Params) (f : Bit) (l : LinkState) : (l.ageupd p f).lastCmd = l.lastCmd := rfl
@[simp] theorem ageupd_rxState (p : Params) (f : Bit) (l : LinkState) : (l.ageupd p f).rxState = l.rxState := rfl
@[simp] theorem ageupd_q (p : Params) (f : Bit) (l : LinkState) : (l.ageupd p f).q = l.q := rfl
@[simp] theorem ageupd_cursor (p : Params) (f : Bit) (l : LinkState) : (l.ageupd p f).cursor = l.cursor := rfl
@[simp] theorem ageupd_err (p : Params) (f : Bit) (l : LinkState) : (l.ageupd p f).err = l.err := rfl
@[simp] theorem ageupd_age (p : Params) (f : Bit) (l : LinkState) :
    (l.ageupd p f).age = if f then 0 else min (l.age + 1) p.ageMax := rfl

@[simp] theorem dispatch_out (c d : U4) (l : LinkState) : (l.dispatch c d).out = l.out := by
  unfold LinkState.dispatch; split <;> rfl
@[simp] theorem dispatch_lastCmd (c d : U4) (l : LinkState) : (l.dispatch c d).lastCmd = l.lastCmd := by
  unfold LinkState.dispatch; split <;> rfl
@[simp] theorem dispatch_rxState (c d : U4) (l : LinkState) :
    (l.dispatch c d).rxState = if c = cmdUpdateState then d else l.rxState := by
  unfold LinkState.dispatch; split <;> rfl
@[simp] theorem dispatch_q (c d : U4) (l : LinkState) : (l.dispatch c d).q = l.q := by
  unfold LinkState.dispatch; split <;> rfl
@[simp] theorem dispatch_cursor (c d : U4) (l : LinkState) : (l.dispatch c d).cursor = l.cursor := by
  unfold LinkState.dispatch; split <;> rfl
@[simp] theorem dispatch_err (c d : U4) (l : LinkState) : (l.dispatch c d).err = l.err := by
  unfold LinkState.dispatch; split <;> rfl
@[simp] theorem dispatch_age (c d : U4) (l : LinkState) : (l.dispatch c d).age = l.age := by
  unfold LinkState.dispatch; split <;> rfl

end Sys2Proof.Machine
end

