-- ==== Sys2Proof/Laws/Ops.lean ====
section
/-! SUPPORT. For each shared operation, one lemma that says once everything it can do. -/

namespace Sys2Proof.Machine

theorem inError_eq_false {l : LinkState} : l.inError = false ↔ l.err = .none := by
  cases h : l.err <;> simp [LinkState.inError, h]

theorem inError_eq_true {l : LinkState} : l.inError = true ↔ l.err ≠ .none := by
  cases h : l.err <;> simp [LinkState.inError, h]

/-! ## The queue -/

theorem getElem_shiftQueue (q : Vector Entry queueCap) (k : Nat) (hk : k < queueCap) :
    (shiftQueue q)[k] = if h : k + 1 < queueCap then q[k + 1] else q[k] := by
  simp [shiftQueue]

/-- The shifted queue, slot by slot (R104). -/
theorem shiftQueue_eq (q : Vector Entry queueCap) : shiftQueue q = #v[q[1], q[2], q[3], q[3]] := by
  apply Vector.ext
  intro k hk
  rw [getElem_shiftQueue]
  match k, hk with
  | 0, _ => rfl
  | 1, _ => rfl
  | 2, _ => rfl
  | 3, _ => rfl

/-- A queue as the list of its slots. -/
theorem queue_toList (q : Vector Entry queueCap) : q.toList = [q[0], q[1], q[2], q[3]] := by
  apply List.ext_getElem
  · simp
  · intro k hk _
    have : k < 4 := by simpa using hk
    match k, this with
    | 0, _ => rfl
    | 1, _ => rfl
    | 2, _ => rfl
    | 3, _ => rfl

/-- `ENQ` refuses (R106), overruns (R102) or appends (R101). -/
theorem enq_cases (e : Entry) (l : LinkState) :
    (l.err ≠ .none ∧ l.enq e = (l, false)) ∨
    (l.err = .none ∧ l.cursor.val = queueCap ∧ l.enq e = (l.raise .overrun, false)) ∨
    (l.err = .none ∧ ∃ h : l.cursor.val < queueCap,
      l.enq e = ({ l with q := l.q.set l.cursor.val e, cursor := ⟨l.cursor.val + 1, Nat.succ_lt_succ h⟩ }, true)) := by
  by_cases he : l.err = .none
  · by_cases hc : l.cursor.val < queueCap
    · exact .inr (.inr ⟨he, hc, by simp [LinkState.enq, inError_eq_false.2 he, hc]⟩)
    · have := l.cursor.isLt
      exact .inr (.inl ⟨he, by omega, by simp [LinkState.enq, inError_eq_false.2 he, hc]⟩)
  · exact .inl ⟨he, by simp [LinkState.enq, inError_eq_true.2 he]⟩

/-- `DEQ` raises `OUT_OF_SYNC` (R105) or shifts (R104). -/
theorem deq_cases (l : LinkState) :
    (l.cursor.val = 0 ∧ l.deq = l.raise .outOfSync) ∨
    (∃ _ : 1 ≤ l.cursor.val,
      l.deq = { l with q := shiftQueue l.q,
                       cursor := ⟨l.cursor.val - 1, Nat.lt_of_le_of_lt (Nat.sub_le _ _) l.cursor.isLt⟩ }) := by
  by_cases h : l.cursor.val = 0
  · exact .inl ⟨h, by simp [LinkState.deq, h]⟩
  · exact .inr ⟨by omega, by simp [LinkState.deq, h]⟩

@[simp] theorem deq_out (l : LinkState) : l.deq.out = l.out := by
  unfold LinkState.deq; split <;> rfl
@[simp] theorem deq_lastCmd (l : LinkState) : l.deq.lastCmd = l.lastCmd := by
  unfold LinkState.deq; split <;> rfl
@[simp] theorem deq_rxState (l : LinkState) : l.deq.rxState = l.rxState := by
  unfold LinkState.deq; split <;> rfl
@[simp] theorem deq_age (l : LinkState) : l.deq.age = l.age := by
  unfold LinkState.deq; split <;> rfl

/-! ## The phases -/

/-- `RXPHASE` does nothing (no new half), stores a command type (R122), or dispatches a data value (R123). -/
theorem rxphase_cases (o v : U6) (l : LinkState) :
    (toggleOf v = ackOf o ∧ l.rxphase o v = (l, o)) ∨
    (toggleOf v = true ∧ ackOf o = false ∧ l.rxphase o v = ({ l with lastCmd := payloadOf v }, withAck o true)) ∨
    (toggleOf v = false ∧ ackOf o = true ∧ l.rxphase o v = (l.dispatch l.lastCmd (payloadOf v), withAck o false)) := by
  cases hv : toggleOf v <;> cases ho : ackOf o <;>
    simp [LinkState.rxphase, channelDecode, hv, ho]

/-- The working copy leaves the receive phase with its ack equal to the sampled toggle, its other fields untouched (R124). -/
theorem rxphase_copy (o v : U6) (l : LinkState) : (l.rxphase o v).2 = withAck o (toggleOf v) := by
  rcases rxphase_cases o v l with ⟨h, e⟩ | ⟨h, _, e⟩ | ⟨h, _, e⟩ <;> rw [e, h]
  simp [withAck]

/-- What the receive phase never writes. -/
theorem rxphase_frame (o v : U6) (l : LinkState) :
    (l.rxphase o v).1.out = l.out ∧ (l.rxphase o v).1.q = l.q ∧ (l.rxphase o v).1.cursor = l.cursor ∧
    (l.rxphase o v).1.err = l.err ∧ (l.rxphase o v).1.age = l.age := by
  rcases rxphase_cases o v l with ⟨_, e⟩ | ⟨_, _, e⟩ | ⟨_, _, e⟩ <;> rw [e] <;> simp

/-- A data half that arrives under a command type writes `rx_state`, or nothing (R23, R74, R123). -/
theorem dataUnder_cases (c d : U4) (l : LinkState) :
    l.dataUnder c d = l ∨
    (l.lastCmd = cmdUpdateState ∧ c = cmdUpdateState ∧ ackOf l.out = true ∧ l.dataUnder c d = { l with rxState := d }) := by
  unfold LinkState.dataUnder
  split
  · next h =>
    rcases rxphase_cases l.out (channelEncode false toggleData d) l with ⟨_, e⟩ | ⟨hv, _⟩ | ⟨_, ho, e⟩
    · exact .inl (by rw [e])
    · simp at hv
    · rw [e]
      by_cases hc : l.lastCmd = cmdUpdateState
      · exact .inr ⟨hc, by rw [← h, hc], ho, by simp [LinkState.dispatch, hc]⟩
      · exact .inl (by simp [LinkState.dispatch, hc])
  · exact .inl rfl

@[simp] theorem dataUnder_out (c d : U4) (l : LinkState) : (l.dataUnder c d).out = l.out := by
  rcases dataUnder_cases c d l with e | ⟨_, _, _, e⟩ <;> rw [e]
@[simp] theorem dataUnder_lastCmd (c d : U4) (l : LinkState) : (l.dataUnder c d).lastCmd = l.lastCmd := by
  rcases dataUnder_cases c d l with e | ⟨_, _, _, e⟩ <;> rw [e]
@[simp] theorem dataUnder_q (c d : U4) (l : LinkState) : (l.dataUnder c d).q = l.q := by
  rcases dataUnder_cases c d l with e | ⟨_, _, _, e⟩ <;> rw [e]
@[simp] theorem dataUnder_cursor (c d : U4) (l : LinkState) : (l.dataUnder c d).cursor = l.cursor := by
  rcases dataUnder_cases c d l with e | ⟨_, _, _, e⟩ <;> rw [e]
@[simp] theorem dataUnder_err (c d : U4) (l : LinkState) : (l.dataUnder c d).err = l.err := by
  rcases dataUnder_cases c d l with e | ⟨_, _, _, e⟩ <;> rw [e]
@[simp] theorem dataUnder_age (c d : U4) (l : LinkState) : (l.dataUnder c d).age = l.age := by
  rcases dataUnder_cases c d l with e | ⟨_, _, _, e⟩ <;> rw [e]

/-- `TXPHASE` is blocked, idle, sends a command half (R126), sends a data half (R128), or is out of sync (R127). -/
theorem txphase_cases (o v : U6) (l : LinkState) :
    (ackOf v ≠ toggleOf o ∧ l.txphase o v = (l, o, false)) ∨
    (ackOf v = toggleOf o ∧ toggleOf o = false ∧ l.cursor.val = 0 ∧ l.txphase o v = (l, o, false)) ∨
    (ackOf v = toggleOf o ∧ toggleOf o = false ∧ 1 ≤ l.cursor.val ∧
      l.txphase o v = (l, channelEncode (ackOf o) true l.q[0].cmd, false)) ∨
    (ackOf v = toggleOf o ∧ toggleOf o = true ∧ 1 ≤ l.cursor.val ∧
      l.txphase o v = (l.deq, channelEncode (ackOf o) false l.q[0].data, false)) ∨
    (ackOf v = toggleOf o ∧ toggleOf o = true ∧ l.cursor.val = 0 ∧
      l.txphase o v = (l.raise .outOfSync, channelEncode (ackOf o) false l.q[0].data, true)) := by
  by_cases hg : ackOf v = toggleOf o
  · cases ht : toggleOf o <;> rcases Nat.eq_zero_or_pos l.cursor.val with hc | hc
    · exact .inr (.inl ⟨by rw [hg, ht], rfl, hc, by simp [LinkState.txphase, channelDecode, hg, ht, hc]⟩)
    · refine .inr (.inr (.inl ⟨by rw [hg, ht], rfl, hc, ?_⟩))
      simp [LinkState.txphase, channelDecode, hg, ht, Nat.pos_iff_ne_zero.1 hc, LinkState.qhead, withPayload]
    · refine .inr (.inr (.inr (.inr ⟨by rw [hg, ht], rfl, hc, ?_⟩)))
      simp [LinkState.txphase, channelDecode, hg, ht, hc, LinkState.qhead, withPayload, LinkState.deq]
    · refine .inr (.inr (.inr (.inl ⟨by rw [hg, ht], rfl, hc, ?_⟩)))
      simp [LinkState.txphase, channelDecode, hg, ht, Nat.pos_iff_ne_zero.1 hc, LinkState.qhead, withPayload]
  · exact .inl ⟨hg, by simp [LinkState.txphase, channelDecode, hg]⟩

/-! ## The whole step of a link -/

theorem stale_eq_true {p : Params} {l : LinkState} : l.stale p = true ↔ p.expireLimit ≤ l.age := by
  simp [LinkState.stale]

theorem stale_eq_false {p : Params} {l : LinkState} : l.stale p = false ↔ l.age < p.expireLimit := by
  simp [LinkState.stale]

/-- `LSTEP` resets a stale link (R131), does nothing on a live link in error (R129), or performs the phases (R130). -/
theorem lstep_cases (p : Params) (v : U6) (f : Bit) (l : LinkState) :
    ((l.ageupd p f).stale p = true ∧ l.lstep p v f = (l.ageupd p f).lrst) ∨
    ((l.ageupd p f).stale p = false ∧ l.err ≠ .none ∧ l.lstep p v f = l.ageupd p f) ∨
    ((l.ageupd p f).stale p = false ∧ l.err = .none ∧ l.lstep p v f = (l.ageupd p f).phases p v) := by
  cases hs : (l.ageupd p f).stale p
  · by_cases he : l.err = .none
    · have : (l.ageupd p f).inError = false := inError_eq_false.2 (by simpa using he)
      exact .inr (.inr ⟨rfl, he, by simp [LinkState.lstep, hs, this]⟩)
    · have : (l.ageupd p f).inError = true := inError_eq_true.2 (by simpa using he)
      exact .inr (.inl ⟨rfl, he, by simp [LinkState.lstep, hs, this]⟩)
  · exact .inl ⟨rfl, by simp [LinkState.lstep, hs]⟩

/-- A step with a fresh value finds the link live (R152), the limit being at least 1 (R7). -/
theorem fresh_live {p : Params} (hp : p.wf) (l : LinkState) : (l.ageupd p true).stale p = false := by
  rw [stale_eq_false]; exact hp.2.1

/-- The one write of `out` (R130): the receive phase, then the send phase on its working copy. -/
theorem phases_eq (p : Params) (v : U6) (l : LinkState) :
    l.phases p v =
      if ((l.rxphase l.out v).1.txphase (l.rxphase l.out v).2 v).2.2 = true ∧ ¬ p.oosCommit = true
      then ((l.rxphase l.out v).1.txphase (l.rxphase l.out v).2 v).1
      else { ((l.rxphase l.out v).1.txphase (l.rxphase l.out v).2 v).1 with
        out := ((l.rxphase l.out v).1.txphase (l.rxphase l.out v).2 v).2.1 } := rfl

/-! ## Parameters -/

/-- The implementation's parameters meet the constraints of R7, whatever the uninterpreted constants are. -/
theorem config_params_wf : Config.params.wf := by
  have h : 1 < 2 ^ (Config.ageWidthLessOne + 1) := Nat.one_lt_two_pow (Nat.succ_ne_zero _)
  have hm := Nat.mod_lt Config.expireSeed (y := 2 ^ (Config.ageWidthLessOne + 1) - 1) (by omega)
  refine ⟨?_, ?_, ?_⟩ <;> simp only [Config.params, Params.ageMax] <;> omega

end Sys2Proof.Machine

/-- Every pair of sizes R7 allows is reached by some value of the uninterpreted constants. -/
theorem Sys2Proof.Laws.config_params_cover (p : Sys2Proof.Params) (h : p.wf) :
    ∃ w seed : Nat, p.ageW = w + 1 ∧ p.expireLimit = seed % (2 ^ (w + 1) - 1) + 1 := by
  obtain ⟨h1, h2, h3⟩ := h
  refine ⟨p.ageW - 1, p.expireLimit - 1, by omega, ?_⟩
  have : p.ageW - 1 + 1 = p.ageW := by omega
  rw [this, Nat.mod_eq_of_lt (by unfold Sys2Proof.Params.ageMax at h3; omega)]
  omega
end

