-- ==== Sys2Proof/Laws/Exec.lean ====
section
/-! SUPPORT. What any one operation can do to a link, said once, and the constants and pending requests it never changes. -/

namespace Sys2Proof.Machine

/-- An operation on link `k` alone: another link is as before, and link `k` is as the operation leaves it. -/
theorem link_set_answer {s t : State} {k : Link} {l : LinkState} {r : Result} (h : (s.setLink k l).answer r = t) (i : Link) :
    t.link i = s.link i ∨ (i = k ∧ t.link i = l) := by
  subst h
  by_cases hi : i = k
  · subst hi; exact .inr ⟨rfl, by simp⟩
  · exact .inl (by simp [hi])

/-- What an operation does to one link: nothing, or the one operation on the link that its rule names. -/
theorem exec_link {ins : Instr} {s t : State} (h : exec ins s = .next t) (i : Link) :
    t.link i = s.link i ∨
    (∃ c d, t.link i = (s.link i).dataUnder c d ∧ ins = commandTypeOf i c d) ∨
    (∃ e, t.link i = ((s.link i).enq e).1 ∧ ((∃ c d, ins = .enq i c d) ∨ ∃ d, ins = .send i d)) ∨
    (t.link i = (s.link i).deq ∧ ins = .deq i) ∨
    (∃ o v, t.link i = ((s.link i).rxphase o v).1 ∧ ins = .rxphase i o v) ∨
    (∃ o v, t.link i = ((s.link i).txphase o v).1 ∧ ins = .txphase i o v) ∨
    (∃ v f, t.link i = (s.link i).lstep s.cfg v f ∧ ins.samples i v f) ∨
    (∃ f, t.link i = (s.link i).ageupd s.cfg f ∧ ins = .ageupd i f) ∨
    (t.link i = (s.link i).lrst ∧ (ins = .lrst i ∨ ins = .resetall)) ∨
    (t.link i = (s.link i).por s.cfg ∧ ins = .por) := by
  cases ins with
  | halfCmd k a c =>
    rcases link_set_answer (Host.Outcome.next.inj h) i with e | ⟨rfl, e⟩
    · exact .inl e
    · exact .inr (.inr (.inr (.inr (.inr (.inr (.inl ⟨_, _, e, .inr (.inl ⟨_, _, rfl, rfl, rfl⟩)⟩))))))
  | halfData k a d =>
    rcases link_set_answer (Host.Outcome.next.inj h) i with e | ⟨rfl, e⟩
    · exact .inl e
    · exact .inr (.inr (.inr (.inr (.inr (.inr (.inl ⟨_, _, e, .inr (.inr (.inl ⟨_, _, rfl, rfl, rfl⟩))⟩))))))
  | enq k c d =>
    rcases link_set_answer (Host.Outcome.next.inj h) i with e | ⟨rfl, e⟩
    · exact .inl e
    · exact .inr (.inr (.inl ⟨_, e, .inl ⟨_, _, rfl⟩⟩))
  | send k d =>
    rcases link_set_answer (Host.Outcome.next.inj h) i with e | ⟨rfl, e⟩
    · exact .inl e
    · exact .inr (.inr (.inl ⟨_, e, .inr ⟨_, rfl⟩⟩))
  | deq k =>
    rcases link_set_answer (Host.Outcome.next.inj h) i with e | ⟨rfl, e⟩
    · exact .inl e
    · exact .inr (.inr (.inr (.inl ⟨e, rfl⟩)))
  | rxphase k o v =>
    rcases link_set_answer (Host.Outcome.next.inj h) i with e | ⟨rfl, e⟩
    · exact .inl e
    · exact .inr (.inr (.inr (.inr (.inl ⟨_, _, e, rfl⟩))))
  | txphase k o v =>
    rcases link_set_answer (Host.Outcome.next.inj h) i with e | ⟨rfl, e⟩
    · exact .inl e
    · exact .inr (.inr (.inr (.inr (.inr (.inl ⟨_, _, e, rfl⟩)))))
  | lstep k v f =>
    rcases link_set_answer (Host.Outcome.next.inj h) i with e | ⟨rfl, e⟩
    · exact .inl e
    · exact .inr (.inr (.inr (.inr (.inr (.inr (.inl ⟨_, _, e, .inl rfl⟩))))))
  | cycle vs fs =>
    cases h
    exact .inr (.inr (.inr (.inr (.inr (.inr (.inl ⟨vs[i.val], fs[i.val],
      by simp only [answer_link, link_forEachLink], .inr (.inr (.inr ⟨_, _, rfl, rfl, rfl⟩))⟩))))))
  | ageupd k f =>
    rcases link_set_answer (Host.Outcome.next.inj h) i with e | ⟨rfl, e⟩
    · exact .inl e
    · exact .inr (.inr (.inr (.inr (.inr (.inr (.inr (.inl ⟨_, e, rfl⟩)))))))
  | lrst k =>
    rcases link_set_answer (Host.Outcome.next.inj h) i with e | ⟨rfl, e⟩
    · exact .inl e
    · exact .inr (.inr (.inr (.inr (.inr (.inr (.inr (.inr (.inl ⟨e, .inl rfl⟩))))))))
  | resetall =>
    cases h
    exact .inr (.inr (.inr (.inr (.inr (.inr (.inr (.inr (.inl ⟨by simp only [answer_link, link_forEachLink], .inr rfl⟩))))))))
  | por =>
    cases h
    exact .inr (.inr (.inr (.inr (.inr (.inr (.inr (.inr (.inr ⟨by simp only [answer_link, link_forEachLink], rfl⟩))))))))
  | ct0 | ctUpdateState | ct2 | ct3 | ct4 | ct5 | ct6 | ct7 | ct8 | ct9 | ctA | ctB | ctC | ctD | ctE | ctF =>
    rcases link_set_answer (Host.Outcome.next.inj h) i with e | ⟨rfl, e⟩
    · exact .inl e
    · exact .inr (.inl ⟨_, _, e, rfl⟩)
  | errNone | errOverrun | errOutOfSync | encode | decode | qhead | stale | rdstate | rderr | rdout | rdstale =>
    cases h; exact .inl rfl

/-- The operations that step a link are those that sample a value for it. -/
theorem sampleOn_eq_some {i : Link} {ins : Instr} {v : U6} {f : Bit} : ins.sampleOn i = some (v, f) ↔ ins.samples i v f := by
  constructor
  · intro h
    cases ins with
    | lstep k w g =>
      simp only [Instr.sampleOn, Option.ite_none_right_eq_some, Option.some.injEq, Prod.mk.injEq] at h
      obtain ⟨rfl, rfl, rfl⟩ := h; exact .inl rfl
    | halfCmd k a c =>
      simp only [Instr.sampleOn, Option.ite_none_right_eq_some, Option.some.injEq, Prod.mk.injEq] at h
      obtain ⟨rfl, rfl, rfl⟩ := h; exact .inr (.inl ⟨_, _, rfl, rfl, rfl⟩)
    | halfData k a d =>
      simp only [Instr.sampleOn, Option.ite_none_right_eq_some, Option.some.injEq, Prod.mk.injEq] at h
      obtain ⟨rfl, rfl, rfl⟩ := h; exact .inr (.inr (.inl ⟨_, _, rfl, rfl, rfl⟩))
    | cycle vs fs => cases h; exact .inr (.inr (.inr ⟨_, _, rfl, rfl, rfl⟩))
    | _ => cases h
  · rintro (rfl | ⟨a, c, rfl, rfl, rfl⟩ | ⟨a, d, rfl, rfl, rfl⟩ | ⟨vs, fs, rfl, rfl, rfl⟩) <;> simp [Instr.sampleOn]

/-- The dispatch's arms are no operations that agents issue. -/
@[simp] theorem commandTypeOf_isInternal (i : Link) (c d : U4) : (commandTypeOf i c d).isInternal = true := by
  unfold commandTypeOf; split <;> rfl

end Sys2Proof.Machine
end

