-- ==== Sys2Proof/Laws/Channel.lean ====
section
/-! SUPPORT. What a step and an operation of two joined engines can do, for any channel, and how the two instances of R64 read. -/

namespace Sys2Proof.Machine

variable {M : ChannelModel}

@[simp] theorem joined_swap_swap (c : Joined M) : c.swap.swap = c := rfl

/-- A step of A reads a value the channel gives, and presents what it leaves. -/
theorem lstepA_eq_some {i : Link} {k : Nat} {f : Bit} {c d : Joined M} (h : c.lstepA i k f = some d) :
    ∃ v ba, M.sample k c.ba = some (v, ba) ∧
      d = ⟨⟨c.engines.a.onLink i (LinkState.lstep c.engines.a.cfg v f), c.engines.b⟩,
        M.present ((c.engines.a.link i).lstep c.engines.a.cfg v f).out c.ab, ba⟩ := by
  unfold Joined.lstepA at h
  split at h
  · next v ba hs => cases h; exact ⟨v, ba, hs, by simp⟩
  · cases h

/-- An operation on A samples nothing, is done by `exec`, and presents what the link holds afterwards. -/
theorem opA_eq_some {i : Link} {op : Instr} {c d : Joined M} (h : c.opA i op = some d) :
    op.isInternal = false ∧ op.sampleOn i = none ∧
    ∃ a, exec op c.engines.a = .next a ∧ d = ⟨⟨a, c.engines.b⟩, M.present (a.link i).out c.ab, c.ba⟩ := by
  unfold Joined.opA at h
  split at h
  · cases h
  · next hn =>
    rw [not_or] at hn
    split at h
    · next a ha => cases h; exact ⟨by simpa using hn.1, by simpa using hn.2, a, ha, rfl⟩
    · cases h

/-- Over the reciprocating channel a step of A is the step of two engines that read each other. -/
theorem lstepA_reciprocating {i j : Link} {k : Nat} {f : Bit} {c : Joined .reciprocating} (h : c.ba = (c.engines.b.link j).out) :
    ∃ d, c.lstepA i k f = some d ∧ d.engines = c.engines.lstepA i j f ∧ d.ba = (d.engines.b.link j).out ∧
      d.ab = (d.engines.a.link i).out := by
  refine ⟨_, rfl, ?_, h, rfl⟩
  rw [show c.ba = (c.engines.b.link j).out from h]; rfl

/-- The sampled register gives a value that was presented, not earlier than the one read last (R64). -/
theorem sampledRegister_sample {k : Nat} {h h' : History} {v : U6} :
    ChannelModel.sampledRegister.sample k h = some (v, h') ↔ h.seen ≤ k ∧ h.values[k]? = some v ∧ h' = { h with seen := k } := by
  simp only [ChannelModel.sampledRegister]
  split
  · next hk =>
    split
    · next w hw => simp [hk, hw, eq_comm]
    · next hw => simp [hw]
  · next hk => simp [hk]

end Sys2Proof.Machine
end

