-- ==== Sys2Proof/Laws/PerInstr.lean ====
section
/-! SUPPORT. Statements for all instructions, made per instruction: one family, one lemma per constructor of `Instr`. -/

namespace Sys2Proof.Laws.EncodeWellFormed

/-- The request of an instruction names an operation of the block. -/
def Statement (i : Instr) : Prop := (encode i).wellFormed = true

theorem halfCmd (i : Link) (a : Bit) (c : U4) : Statement (.halfCmd i a c) := by
  simp [Statement, encode, encodeWire, Request.wellFormed, Request.linkOk, Request.operandsOk, Request.codeOk, Port.arity]

theorem halfData (i : Link) (a : Bit) (d : U4) : Statement (.halfData i a d) := by
  simp [Statement, encode, encodeWire, Request.wellFormed, Request.linkOk, Request.operandsOk, Request.codeOk, Port.arity]

theorem commandType (i : Link) (c d : U4) : (encodeCommandType i c d).wellFormed = true := by
  simp [encodeCommandType, Request.wellFormed, Request.linkOk, Request.operandsOk, Request.codeOk, Port.arity]

theorem ct0 (i : Link) (d : U4) : Statement (.ct0 i d) := commandType ..
theorem ctUpdateState (i : Link) (d : U4) : Statement (.ctUpdateState i d) := commandType ..
theorem ct2 (i : Link) (d : U4) : Statement (.ct2 i d) := commandType ..
theorem ct3 (i : Link) (d : U4) : Statement (.ct3 i d) := commandType ..
theorem ct4 (i : Link) (d : U4) : Statement (.ct4 i d) := commandType ..
theorem ct5 (i : Link) (d : U4) : Statement (.ct5 i d) := commandType ..
theorem ct6 (i : Link) (d : U4) : Statement (.ct6 i d) := commandType ..
theorem ct7 (i : Link) (d : U4) : Statement (.ct7 i d) := commandType ..
theorem ct8 (i : Link) (d : U4) : Statement (.ct8 i d) := commandType ..
theorem ct9 (i : Link) (d : U4) : Statement (.ct9 i d) := commandType ..
theorem ctA (i : Link) (d : U4) : Statement (.ctA i d) := commandType ..
theorem ctB (i : Link) (d : U4) : Statement (.ctB i d) := commandType ..
theorem ctC (i : Link) (d : U4) : Statement (.ctC i d) := commandType ..
theorem ctD (i : Link) (d : U4) : Statement (.ctD i d) := commandType ..
theorem ctE (i : Link) (d : U4) : Statement (.ctE i d) := commandType ..
theorem ctF (i : Link) (d : U4) : Statement (.ctF i d) := commandType ..

theorem errorCode (i : Link) (c : U2) (h : c ≠ 3#2) : (encodeErrCode i c).wellFormed = true := by
  simp [encodeErrCode, Request.wellFormed, Request.linkOk, Request.operandsOk, Request.codeOk, Port.arity, h]

theorem errNone (i : Link) : Statement (.errNone i) := errorCode i _ (by decide)
theorem errOverrun (i : Link) : Statement (.errOverrun i) := errorCode i _ (by decide)
theorem errOutOfSync (i : Link) : Statement (.errOutOfSync i) := errorCode i _ (by decide)

theorem call (op : OpName) (i : Link) (bytes : List Byte) (h : bytes.length = op.arity) :
    (encodeCall op i bytes).wellFormed = true := by
  simp [encodeCall, Request.wellFormed, Request.linkOk, Request.operandsOk, Request.codeOk, Port.arity, h]

theorem blockCall (op : OpName) (bytes : List Byte) (h : bytes.length = op.arity) :
    (encodeBlockCall op bytes).wellFormed = true := by
  simp [encodeBlockCall, Request.wellFormed, Request.linkOk, Request.operandsOk, Request.codeOk, Port.arity, h]

theorem encode (a t : Bit) (p : U4) : Statement (.encode a t p) := blockCall _ _ rfl
theorem decode (v : U6) : Statement (.decode v) := blockCall _ _ rfl
theorem enq (i : Link) (c d : U4) : Statement (.enq i c d) := call _ _ _ rfl
theorem qhead (i : Link) : Statement (.qhead i) := call _ _ _ rfl
theorem deq (i : Link) : Statement (.deq i) := call _ _ _ rfl
theorem rxphase (i : Link) (o v : U6) : Statement (.rxphase i o v) := call _ _ _ rfl
theorem txphase (i : Link) (o v : U6) : Statement (.txphase i o v) := call _ _ _ rfl
theorem lstep (i : Link) (v : U6) (b : Bit) : Statement (.lstep i v b) := call _ _ _ rfl

theorem cycle (vs : Vector U6 nLinks) (fs : Vector Bit nLinks) : Statement (.cycle vs fs) :=
  blockCall _ _ (by simp [OpName.arity, Nat.two_mul])

theorem ageupd (i : Link) (b : Bit) : Statement (.ageupd i b) := call _ _ _ rfl
theorem stale (i : Link) : Statement (.stale i) := call _ _ _ rfl
theorem lrst (i : Link) : Statement (.lrst i) := call _ _ _ rfl
theorem por : Statement .por := blockCall _ _ rfl
theorem rdstate (i : Link) : Statement (.rdstate i) := call _ _ _ rfl
theorem rderr (i : Link) : Statement (.rderr i) := call _ _ _ rfl
theorem rdout (i : Link) : Statement (.rdout i) := call _ _ _ rfl
theorem rdstale (i : Link) : Statement (.rdstale i) := call _ _ _ rfl
theorem resetall : Statement .resetall := blockCall _ _ rfl
theorem send (i : Link) (d : U4) : Statement (.send i d) := call _ _ _ rfl

end Sys2Proof.Laws.EncodeWellFormed
end

