-- ==== Sys2Proof/Tests/Slice0.lean ====
section
/-! SUPPORT. Tests: what the well-formedness check refuses, decoding of words written out from the spec's tables, the vectors of
95_test_vectors.md (their names stand in the comments; its parameters are `AGE_W` 2, `AGE_MAX` 3, `EXPIRE_LIMIT` 2), and for every
obligation with hypotheses a witness that meets them. -/

namespace Sys2Proof.Tests

open Machine

/-- The parameters of the vectors. -/
def params : Params := ⟨2, 2, false⟩

/-- The same with `OOS_COMMIT` true. -/
def paramsCommit : Params := ⟨2, 2, true⟩

/-- A queue whose slots not named hold (0,0). -/
def queue (a b c d : Entry) : Vector Entry queueCap := #v[a, b, c, d]

/-- The entry (0,0). -/
def zero : Entry := ⟨0, 0⟩

/-- The full queue of Q4, Q7, T9, T13. -/
def full : Vector Entry queueCap := queue ⟨1, 3⟩ ⟨1, 4⟩ ⟨1, 5⟩ ⟨1, 6⟩

/-- A queue with one entry. -/
def single (e : Entry) : Vector Entry queueCap := queue e zero zero zero

/-- A live link without error and with empty slots. -/
def live : LinkState := ⟨0x00, 0, 0, queue zero zero zero zero, 0, .none, 0⟩

/-- A block after `POR` but for link 0. -/
def block (l : LinkState) : State := (State.afterPor params).setLink 0 l

/-- Link 0 and the result after an instruction that goes on. -/
def after (i : Instr) (s : State) : Option (LinkState × Result) :=
  match exec i s with
  | .next t => some (t.link 0, t.result)
  | _ => none

/-- The state after an instruction that goes on. -/
def next (i : Instr) (s : State) : Option State :=
  match exec i s with
  | .next t => some t
  | _ => none

/-- Whether a step goes on. -/
def goesOn (s : State) : Bool :=
  match step s with
  | .next _ => true
  | _ => false

/-! ## WellFormed, smoke: each check refuses an ill-formed request -/

theorem test_wellformed_refuses_link : Request.wellFormed ⟨.call .lrst, 6, []⟩ = false := by decide
theorem test_wellformed_refuses_count : Request.wellFormed ⟨.call .enq, 0, [1]⟩ = false := by decide
theorem test_wellformed_refuses_code : Request.wellFormed ⟨.errCode, 0, [3]⟩ = false := by decide
theorem test_wellformed_accepts : Request.wellFormed ⟨.call .enq, 5, [1, 2]⟩ = true := by decide

/-! ## Decoding, from the tables of R72, R74, R77 and the operand lists of R80 and R90 to R161 -/

theorem test_decode_halves :
    decode ⟨.wire, 2, [0b00110001]⟩ = .ok (.halfCmd 2 true 1) ∧ decode ⟨.wire, 0, [0b00001010]⟩ = .ok (.halfData 0 false 10) ∧
    decode ⟨.wire, 5, [0b11100101]⟩ = .ok (.halfData 5 true 5) := ⟨rfl, rfl, rfl⟩
theorem test_decode_command_types :
    [0b0000, 0b0001, 0b0010, 0b0011, 0b0100, 0b0101, 0b0110, 0b0111, 0b1000, 0b1001, 0b1010, 0b1011, 0b1100, 0b1101, 0b1110,
      0b1111].map (decodeTableWord 4) =
    [some (.ct0 0 0), some (.ctUpdateState 0 0), some (.ct2 0 0), some (.ct3 0 0), some (.ct4 0 0), some (.ct5 0 0),
      some (.ct6 0 0), some (.ct7 0 0), some (.ct8 0 0), some (.ct9 0 0), some (.ctA 0 0), some (.ctB 0 0), some (.ctC 0 0),
      some (.ctD 0 0), some (.ctE 0 0), some (.ctF 0 0)] := by decide
theorem test_decode_error_codes :
    [0b00, 0b01, 0b10, 0b11].map (decodeTableWord 2) = [some (.errNone 0), some (.errOverrun 0), some (.errOutOfSync 0), none] := by
  decide
theorem test_decode_codec_calls :
    decode ⟨.call .encode, 0, [1, 0, 2]⟩ = .ok (.encode true false 2) ∧ decode ⟨.call .decode, 0, [0x25]⟩ = .ok (.decode 0x25) :=
  ⟨rfl, rfl⟩
theorem test_decode_queue_calls :
    decode ⟨.call .enq, 3, [7, 15]⟩ = .ok (.enq 3 7 15) ∧ decode ⟨.call .qhead, 1, []⟩ = .ok (.qhead 1) ∧
    decode ⟨.call .deq, 2, []⟩ = .ok (.deq 2) ∧ decode ⟨.call .send, 4, [9]⟩ = .ok (.send 4 9) := ⟨rfl, rfl, rfl, rfl⟩
theorem test_decode_phase_calls :
    decode ⟨.call .rxphase, 1, [0x20, 0x11]⟩ = .ok (.rxphase 1 0x20 0x11) ∧
    decode ⟨.call .txphase, 1, [0x20, 0x11]⟩ = .ok (.txphase 1 0x20 0x11) ∧
    decode ⟨.call .lstep, 1, [0x37, 1]⟩ = .ok (.lstep 1 0x37 true) ∧
    decode ⟨.call .cycle, 0, [0x20, 0x11, 0x00, 0x20, 0x0F, 0x00, 1, 1, 1, 1, 1, 0]⟩ =
      .ok (.cycle #v[0x20, 0x11, 0x00, 0x20, 0x0F, 0x00] #v[true, true, true, true, true, false]) := ⟨rfl, rfl, rfl, rfl⟩
theorem test_decode_supervisor_calls :
    decode ⟨.call .ageupd, 0, [0]⟩ = .ok (.ageupd 0 false) ∧ decode ⟨.call .stale, 5, []⟩ = .ok (.stale 5) ∧
    decode ⟨.call .lrst, 5, []⟩ = .ok (.lrst 5) ∧ decode ⟨.call .por, 0, []⟩ = .ok .por ∧
    decode ⟨.call .resetall, 0, []⟩ = .ok .resetall := ⟨rfl, rfl, rfl, rfl, rfl⟩
theorem test_decode_read_calls :
    decode ⟨.call .rdstate, 0, []⟩ = .ok (.rdstate 0) ∧ decode ⟨.call .rderr, 1, []⟩ = .ok (.rderr 1) ∧
    decode ⟨.call .rdout, 2, []⟩ = .ok (.rdout 2) ∧ decode ⟨.call .rdstale, 3, []⟩ = .ok (.rdstale 3) := ⟨rfl, rfl, rfl, rfl⟩

/-! ## The step -/

theorem test_step_runs_half : goesOn (State.reset.withFetchWord 8 0x31) = true := by decide
theorem test_step_stops_on_code_three :
    step (State.reset.withFetchWord 2 3) = .fault .errCodeThree := rfl
theorem test_step_refuses_link_six :
    step (State.reset.issue [⟨.call .lrst, 6, []⟩]) = .refused .linkOutOfRange := rfl

/-! ## Codec (C2, C6, C8 to C12, C15, C16) -/

theorem test_encode_C6 : after (.encode true false 2) (block live) = some (live, .value6 0x22) := by decide
theorem test_encode_C8 : after (.encode true true 15) (block live) = some (live, .value6 0x3F) := by decide
theorem test_decode_C9 : after (.decode 0x25) (block live) = some (live, .fields true false 5) := by decide
theorem test_decode_C12 : after (.decode 0x1F) (block live) = some (live, .fields false true 15) := by decide
theorem test_trunc_C15_C16 : trunc6 0xE5 = 0x25 ∧ trunc6 0x40 = 0x00 := by decide

/-! ## Queue (Q) -/

theorem test_enq_Q3 :
    after (.enq 0 1 6) (block { live with cursor := 3, q := queue ⟨1, 3⟩ ⟨1, 4⟩ ⟨1, 5⟩ zero }) =
      some ({ live with cursor := 4, q := full }, .truth true) := by decide
theorem test_enq_Q4_Q9 :
    after (.enq 0 1 7) (block { live with cursor := 4, q := full }) =
      some ({ live with cursor := 4, q := full, err := .overrun }, .truth false) ∧
    after (.enq 0 1 1) (block { live with err := .outOfSync }) = some ({ live with err := .outOfSync }, .truth false) := by decide
theorem test_deq_Q7 :
    after (.deq 0) (block { live with cursor := 4, q := full }) =
      some ({ live with cursor := 3, q := queue ⟨1, 4⟩ ⟨1, 5⟩ ⟨1, 6⟩ ⟨1, 6⟩ }, .nothing) := by decide
theorem test_deq_Q8 :
    after (.deq 0) (block { live with q := single ⟨1, 9⟩ }) =
      some ({ live with q := single ⟨1, 9⟩, err := .outOfSync }, .nothing) := by decide
theorem test_qhead_Q11 :
    after (.qhead 0) (block { live with q := single ⟨1, 9⟩ }) = some ({ live with q := single ⟨1, 9⟩ }, .entry ⟨1, 9⟩) := by decide
theorem test_send_Q1 :
    after (.send 0 2) (block live) = some ({ live with cursor := 1, q := single ⟨1, 2⟩ }, .truth true) := by decide
theorem test_lrst_Q13 :
    after (.lrst 0) (block { live with cursor := 4, q := full, err := .overrun }) = some ({ live with q := full }, .nothing) := by
  decide

/-! ## The receive phase (RX) -/

theorem test_rxphase_RX2 :
    after (.rxphase 0 0x00 0x11) (block live) = some ({ live with lastCmd := 1 }, .value6 0x20) := by decide
theorem test_rxphase_RX5 :
    after (.rxphase 0 0x20 0x07) (block { live with lastCmd := 7, rxState := 4 }) =
      some ({ live with lastCmd := 7, rxState := 4 }, .value6 0x00) := by decide
theorem test_halfCmd_RX3 :
    after (.halfCmd 0 true 15) (block live) = some ({ live with out := 0x20, lastCmd := 15 }, .nothing) := by decide
theorem test_halfCmd_RX6 :
    after (.halfCmd 0 false 1) (block { live with out := 0x20, lastCmd := 1 }) =
      some ({ live with out := 0x20, lastCmd := 1 }, .nothing) := by decide
theorem test_halfData_RX4 :
    after (.halfData 0 false 7) (block { live with out := 0x20, lastCmd := 1 }) =
      some ({ live with lastCmd := 1, rxState := 7 }, .nothing) := by decide
theorem test_halfData_RX8 : after (.halfData 0 false 5) (block live) = some (live, .nothing) := by decide
theorem test_ct_update_state :
    after (.ctUpdateState 0 7) (block { live with out := 0x20, lastCmd := 1 }) =
      some ({ live with out := 0x20, lastCmd := 1, rxState := 7 }, .nothing) ∧
    after (.ctUpdateState 0 7) (block { live with out := 0x20, lastCmd := 7 }) =
      some ({ live with out := 0x20, lastCmd := 7 }, .nothing) := by decide
theorem test_ct_unrecognised :
    [Instr.ct0 0 7, .ct2 0 7, .ct3 0 7, .ct4 0 7, .ct5 0 7, .ct6 0 7, .ct7 0 7, .ct8 0 7, .ct9 0 7, .ctA 0 7, .ctB 0 7, .ctC 0 7,
      .ctD 0 7, .ctE 0 7, .ctF 0 7].all (fun i => after i (block { live with out := 0x20, lastCmd := 1 }) =
        some ({ live with out := 0x20, lastCmd := 1 }, .nothing)) = true := by decide

/-! ## The send phase and the whole step (T) -/

theorem test_txphase_T4 :
    after (.txphase 0 0x31 0x31) (block { live with out := 0x11, lastCmd := 1, cursor := 2, q := queue ⟨1, 5⟩ ⟨1, 6⟩ zero zero }) =
      some ({ live with out := 0x11, lastCmd := 1, cursor := 1, q := single ⟨1, 6⟩ }, .sent 0x25 false) := by decide
theorem test_txphase_T10 :
    after (.txphase 0 0x10 0x20) (block { live with out := 0x10, q := single ⟨1, 9⟩ }) =
      some ({ live with out := 0x10, q := single ⟨1, 9⟩, err := .outOfSync }, .sent 0x09 true) := by decide
theorem test_lstep_T5_S12 :
    after (.lstep 0 0x2A true) (block { live with out := 0x31, cursor := 2, q := queue ⟨3, 12⟩ ⟨1, 6⟩ zero zero }) =
      some ({ live with out := 0x0C, cursor := 1, q := single ⟨1, 6⟩ }, .nothing) ∧
    after (.lstep 0 0x20 false) (block { live with out := 0x11, cursor := 4, q := full, err := .overrun, age := 1 }) =
      some ({ live with q := full, age := 2 }, .nothing) := by decide
theorem test_lstep_T11 :
    after (.lstep 0 0x37 true) (block { live with out := 0x10, q := single ⟨1, 9⟩ }) =
      some ({ live with out := 0x10, q := single ⟨1, 9⟩, lastCmd := 7, err := .outOfSync }, .nothing) ∧
    after (.lstep 0 0x37 true) { block { live with out := 0x10, q := single ⟨1, 9⟩ } with cfg := paramsCommit } =
      some ({ live with out := 0x29, q := single ⟨1, 9⟩, lastCmd := 7, err := .outOfSync }, .nothing) := by decide
theorem test_cycle_P6 :
    (next (.cycle #v[0x00, 0x11, 0x00, 0x00, 0x3F, 0x00] #v[true, true, false, true, true, true])
      ((State.afterPor params).setLink 3 { LinkState.afterPor params with cursor := 1, q := single ⟨1, 12⟩ })).map
        (fun t => allLinks.map fun i => ((t.link i).out, (t.link i).lastCmd, (t.link i).age)) =
      some [(0x00, 0, 0), (0x20, 1, 0), (0x00, 0, 3), (0x11, 0, 0), (0x20, 15, 0), (0x00, 0, 0)] := by decide

/-! ## Supervisor and reads (S) -/

theorem test_ageupd_S5 : after (.ageupd 0 false) (block { live with age := 3 }) = some ({ live with age := 3 }, .nothing) := by decide
theorem test_ageupd_S2 : after (.ageupd 0 false) (block live) = some ({ live with age := 1 }, .nothing) := by decide
theorem test_stale_S3 : after (.stale 0) (block { live with age := 2 }) = some ({ live with age := 2 }, .truth true) := by decide
theorem test_stale_S2 : after (.stale 0) (block { live with age := 1 }) = some ({ live with age := 1 }, .truth false) := by decide
theorem test_lrst_S6 :
    after (.lrst 0) (block ⟨0x31, 7, 9, full, 4, .overrun, 1⟩) = some (⟨0x00, 7, 9, full, 0, .none, 1⟩, .nothing) := by decide
theorem test_resetall_S6 :
    after .resetall (block ⟨0x31, 7, 9, full, 4, .overrun, 1⟩) = some (⟨0x00, 7, 9, full, 0, .none, 1⟩, .nothing) := by decide
theorem test_por : after .por (block ⟨0x31, 7, 9, full, 4, .overrun, 1⟩) = some ({ live with age := 3 }, .nothing) := by decide
theorem test_rdstale_S8 : (after (.rdstale 5) (State.afterPor params)).map Prod.snd = some (.truth true) := by decide
theorem test_reads_S9 :
    [Instr.rdstate 0, .rderr 0, .rdout 0].map (fun i => (after i (State.afterPor params)).map Prod.snd) =
      [some (.value4 0), some (.errState .none), some (.value6 0x00)] := by decide
theorem test_error_codes :
    [Instr.errNone 0, .errOverrun 0, .errOutOfSync 0].map (fun i => (after i (block { live with err := .overrun })).map Prod.snd) =
      [some (.truth false), some (.truth true), some (.truth false)] := by decide

/-! ## The signal-level view, the trace notation -/

/-- The inputs of X5 on link 0 and no strobe on the others. -/
def portsX5 : PortsIn :=
  ⟨false, true, Vector.ofFn fun i => if i.val = 0 then ⟨0x00, true, true, 1, 5, true⟩ else ⟨0x00, true, false, 0, 0, false⟩⟩

theorem test_ports_X5 :
    portsX5.ops = [.lrst 0, .enq 0 1 5, .lstep 0 0 true, .lstep 1 0 true, .lstep 2 0 true, .lstep 3 0 true, .lstep 4 0 true,
      .lstep 5 0 true] ∧ portsX5.enqOk 0 live = some true ∧ portsX5.enqOk 1 live = none := by decide

/-- The lines of the notation, as P2, P4 and P6 write them. -/
theorem test_trace_text :
    TraceLine.text ⟨none, .enq 0 1 7, some (.truth false)⟩ = "ENQ 0, 1, 7 -> fail" ∧
    TraceLine.text ⟨some .a, .lstep 0 0x2A (some false), none⟩ = "A: LSTEP 0, in=0x2A, fresh=0" ∧
    TraceLine.text ⟨none, .rderr 0, some (.errState .overrun)⟩ = "RDERR 0 -> OVERRUN" := by decide

/-! ## Witnesses: for every obligation with hypotheses, states and operands that meet them, for each of its clauses -/

/-- A full link without error, a command half on the wire. -/
def fullLink : LinkState := { live with out := 0x11, cursor := 4, q := full }

theorem witness_StepRunsDecodedOrHolds :
    (∃ s : State, s.pending = [⟨.call .enq, 5, [1, 2]⟩] ∧ decode ⟨.call .enq, 5, [1, 2]⟩ = .ok (.enq 5 1 2)) ∧
    (block live).pending = [] :=
  ⟨⟨(block live).issue [⟨.call .enq, 5, [1, 2]⟩], rfl, rfl⟩, by decide⟩

/-- The four clauses, each at the edge: link 6 and link 5, one operand too many, code 3 and code 2. -/
theorem witness_StopsOnlyOnNoOperation :
    Request.linkOk ⟨.call .lrst, 6, []⟩ = false ∧
    (Request.linkOk ⟨.call .lrst, 5, [0]⟩ = true ∧ Request.operandsOk ⟨.call .lrst, 5, [0]⟩ = false) ∧
    (Request.linkOk ⟨.errCode, 5, [3]⟩ = true ∧ Request.operandsOk ⟨.errCode, 5, [3]⟩ = true ∧
      Request.codeOk ⟨.errCode, 5, [3]⟩ = false) ∧
    Request.wellFormed ⟨.errCode, 5, [2]⟩ = true := by decide

/-- A queue of three entries has room, the last place included; so has an empty one. -/
theorem witness_EnqueueAppends :
    ((block { fullLink with cursor := 3 }).link 0).err = .none ∧ ((block { fullLink with cursor := 3 }).link 0).cursor.val < queueCap ∧
    ((block live).link 0).err = .none ∧ ((block live).link 0).cursor.val < queueCap := by decide

theorem witness_EnqNormalCase :
    ((block { fullLink with cursor := 3 }).link 0).err = .none ∧ ((block { fullLink with cursor := 3 }).link 0).cursor.val < queueCap ∧
    ((block live).link 0).err = .none ∧ ((block live).link 0).cursor.val < queueCap := by decide

theorem witness_EnqueueRefused :
    ((block fullLink).link 0).err = .none ∧ ((block fullLink).link 0).cursor.val = queueCap ∧
    ((block { fullLink with err := .overrun }).link 0).err ≠ .none ∧ ((block { live with err := .outOfSync }).link 0).err ≠ .none := by
  decide

theorem witness_SendEnqueuesUpdateState :
    ((block { fullLink with cursor := 3 }).link 0).err = .none ∧
      ((block { fullLink with cursor := 3 }).link 0).cursor.val < queueCap := by decide

theorem witness_DequeueShifts :
    1 ≤ ((block { fullLink with cursor := 1 }).link 0).cursor.val ∧ 1 ≤ ((block fullLink).link 0).cursor.val := by decide

theorem witness_DequeueEmptyRaisesOutOfSync : ((block live).link 0).cursor.val = 0 := by decide

theorem witness_QueueIsFirstInFirstOut :
    (∃ t, exec (.enq 0 1 6) (block { fullLink with cursor := 3 }) = .next t ∧ t.result = .truth true) ∧
    ((block fullLink).link 0).err = .none ∧ 1 ≤ ((block fullLink).link 0).cursor.val ∧
    ∃ t, exec (.deq 0) (block fullLink) = .next t := ⟨⟨_, rfl, by decide⟩, by decide, by decide, _, rfl⟩

theorem witness_RxphaseIgnoresOldHalf : toggleOf 0x11 = ackOf 0x20 ∧ toggleOf 0x0F = ackOf 0x1F := by decide

/-- The cases: no new half, a command half, a data half under `CMD_UPDATE_STATE` and under another type. -/
theorem witness_RxphaseFollowsPseudocode :
    toggleOf 0x11 = ackOf 0x20 ∧ (toggleOf 0x3F ≠ ackOf 0x00 ∧ toggleOf 0x3F = toggleCommand) ∧
    (toggleOf 0x0F ≠ ackOf 0x20 ∧ toggleOf 0x0F = toggleData) ∧
    ((block { live with lastCmd := 1 }).link 0).lastCmd = cmdUpdateState ∧
    ((block { live with lastCmd := 7 }).link 0).lastCmd ≠ cmdUpdateState := by decide

theorem witness_CommandTypesDispatch :
    (ackOf ((block { live with out := 0x20, lastCmd := 1 }).link 0).out = true ∧
      ((block { live with out := 0x20, lastCmd := 1 }).link 0).lastCmd = 0x1#4) ∧
    ackOf ((block live).link 0).out = false ∧ ((block { live with out := 0x20, lastCmd := 7 }).link 0).lastCmd ≠ 0x1#4 := by decide

/-- Each way `rx_state` is written: a sampled half, `RXPHASE`, the row of the command type, `POR`. -/
theorem witness_RxStateWrittenOnlyByReceive :
    [Instr.lstep 0 0x07 true, .rxphase 0 0x20 0x07, .ctUpdateState 0 7, .por].all (fun ins =>
      (after ins (block { live with out := 0x20, lastCmd := 1, rxState := 9 })).any fun r => r.1.rxState ≠ 9) = true := by decide

theorem witness_RxphaseStoresCommand : toggleOf 0x3F ≠ ackOf 0x00 ∧ toggleOf 0x3F = toggleCommand := by decide

theorem witness_RxphaseDispatchesData :
    (toggleOf 0x0F ≠ ackOf 0x20 ∧ toggleOf 0x0F = toggleData) ∧
    ((block { live with lastCmd := 1 }).link 0).lastCmd = 0x1#4 ∧ ((block { live with lastCmd := 7 }).link 0).lastCmd ≠ 0x1#4 := by
  decide

/-- Blocked, and idle. -/
theorem witness_TxphaseBlockedOrIdle :
    ackOf 0x20 ≠ toggleOf 0x02 ∧ (toggleOf 0x02 = toggleData ∧ ((block live).link 0).cursor.val = 0) := by decide

theorem witness_TxphaseSendsCommandHalf :
    (ackOf 0x00 = toggleOf 0x02 ∧ toggleOf 0x02 = toggleData ∧ ((block { live with cursor := 1 }).link 0).cursor.val ≠ 0) ∧
    ∃ t, exec (.lstep 0 0x00 true) (block { live with cursor := 1, q := single ⟨1, 2⟩ }) = .next t ∧
      toggleOf ((block { live with cursor := 1, q := single ⟨1, 2⟩ }).link 0).out = toggleData ∧
      toggleOf (t.link 0).out = toggleCommand := ⟨by decide, _, rfl, by decide, by decide⟩

theorem witness_TxphaseSendsDataHalf :
    ackOf 0x20 = toggleOf 0x11 ∧ toggleOf 0x11 = toggleCommand ∧ 1 ≤ ((block { live with cursor := 1 }).link 0).cursor.val := by decide

theorem witness_TxphaseDataHalfCase :
    ackOf 0x20 = toggleOf 0x11 ∧ toggleOf 0x11 = toggleCommand ∧ 1 ≤ ((block { live with cursor := 1 }).link 0).cursor.val := by decide

theorem witness_TxphaseOutOfSync :
    ackOf 0x20 = toggleOf 0x10 ∧ toggleOf 0x10 = toggleCommand ∧ ((block live).link 0).cursor.val = 0 := by decide

/-- One step short of the limit, not fresh; with an error and without. -/
theorem witness_StaleStepResets :
    ¬ ((block { fullLink with age := 1 }).link 0).liveWith params false ∧
    ¬ ((block { fullLink with err := .overrun, age := 1 }).link 0).liveWith params false := by decide

theorem witness_ErrorGateHolds :
    (((block { fullLink with err := .overrun }).link 0).err ≠ .none ∧
      ((block { fullLink with err := .overrun }).link 0).liveWith params false) ∧
    (((block { live with err := .outOfSync, age := 1 }).link 0).err ≠ .none ∧
      ¬ ((block { live with err := .outOfSync, age := 1 }).link 0).liveWith params false) := by decide

/-- Live with the age at the last value below the limit; one state for each row of the table: blocked, idle, a command half, a data
half from a queue of one, out of sync with either setting of `OOS_COMMIT`. -/
theorem witness_LiveStepFollowsTable :
    (live.liveWith params false ∧ live.err = .none ∧ live.liveWith paramsCommit false) ∧
    (ackOf 0x20 ≠ toggleOf live.out) ∧
    (ackOf 0x00 = toggleOf live.out ∧ toggleOf live.out = false ∧ live.cursor.val = 0) ∧
    (ackOf 0x00 = toggleOf live.out ∧ toggleOf live.out = false ∧ ({ live with cursor := 1 } : LinkState).cursor.val ≠ 0) ∧
    (ackOf 0x20 = toggleOf fullLink.out ∧ toggleOf fullLink.out = true ∧ 1 ≤ ({ fullLink with cursor := 1 } : LinkState).cursor.val) ∧
    (ackOf 0x20 = toggleOf 0x10 ∧ toggleOf 0x10 = true ∧ ({ live with out := 0x10 } : LinkState).cursor.val = 0) := by decide

/-- Both cases of R34 (I-c): a data half on the wire, and a command half with one entry queued. -/
theorem witness_HalfCmdStoredAndAcknowledged :
    params.wf ∧ ((block live).link 0).err = .none ∧ toggleOf ((block live).link 0).out = false ∧
    ((block { fullLink with cursor := 1 }).link 0).err = .none ∧ toggleOf ((block { fullLink with cursor := 1 }).link 0).out = true ∧
    1 ≤ ((block { fullLink with cursor := 1 }).link 0).cursor.val := by decide

theorem witness_HalfDataDispatchedAndAcknowledged :
    params.wf ∧ ((block { live with out := 0x20, lastCmd := 1 }).link 0).err = .none ∧
    toggleOf ((block { live with out := 0x20, lastCmd := 1 }).link 0).out = false ∧
    ackOf ((block { live with out := 0x20, lastCmd := 1 }).link 0).out = true := by decide

theorem witness_SenderHoldsUntilAcknowledged :
    ((block fullLink).link 0).liveWith params false ∧ ackOf 0x00 ≠ toggleOf ((block fullLink).link 0).out := by decide

theorem witness_SampledTwiceActsOnce :
    ((block live).link 0).liveWith params true ∧
    ∃ t, exec (.lstep 0 0x11 true) (block live) = .next t ∧ (t.link 0).liveWith t.cfg true ∧ (t.link 0).err = .none ∧
      ∃ u, exec (.lstep 0 0x11 true) t = .next u ∧ (u.link 0).err = .none :=
  ⟨by decide, _, rfl, by decide, by decide, _, rfl, by decide⟩

/-- Both clauses: a command half on the wire, and a data half. -/
theorem witness_TwoAcknowledgedStepsDequeue :
    (((block fullLink).link 0).err = .none ∧ 1 ≤ ((block fullLink).link 0).cursor.val ∧
      ((block fullLink).link 0).liveWith params true ∧ ackOf 0x20 = toggleOf ((block fullLink).link 0).out ∧
      toggleOf ((block fullLink).link 0).out = toggleCommand) ∧
    ∃ t, exec (.lstep 0 0x00 true) (block { live with cursor := 1, q := single ⟨1, 2⟩ }) = .next t ∧
      ackOf 0x00 = toggleOf ((block { live with cursor := 1, q := single ⟨1, 2⟩ }).link 0).out ∧
      toggleOf ((block { live with cursor := 1, q := single ⟨1, 2⟩ }).link 0).out = toggleData ∧
      (t.link 0).liveWith t.cfg true ∧ ackOf 0x20 = toggleOf (t.link 0).out :=
  ⟨by decide, _, rfl, by decide, by decide, by decide, by decide⟩

theorem witness_IdleStepChangesOnlyAge :
    ((block live).link 0).liveWith params true ∧ ((block live).link 0).idle 0x0F = true := by decide

theorem witness_CycleOrderImmaterial : [5, 4, 3, 2, 1, 0].Perm allLinks := by decide

theorem witness_OperationTouchesOnlyItsLink :
    (Instr.enq 0 1 2).linkOf = some 0 ∧ (∃ t, exec (.enq 0 1 2) (block live) = .next t) ∧
    (∃ t, exec (.enq 0 1 2) ((block live).setLink 5 fullLink) = .next t) ∧
    (block live).link 0 = ((block live).setLink 5 fullLink).link 0 ∧ (block live).cfg = ((block live).setLink 5 fullLink).cfg :=
  ⟨rfl, ⟨_, rfl⟩, ⟨_, rfl⟩, by decide, by decide⟩

theorem witness_DifferentLinksCommute :
    (Instr.enq 0 1 2).linkOf = some 0 ∧ (Instr.lstep 3 0x11 true).linkOf = some 3 ∧ (0 : Link) ≠ 3 := by decide

/-- An error that stays, and one that a stale step ends. -/
theorem witness_ErrorsStickUntilReset :
    (∃ t, exec (.enq 0 1 1) (block { fullLink with err := .overrun }) = .next t) ∧ (Instr.enq 0 1 1).isInternal = false ∧
    ((block { fullLink with err := .overrun }).link 0).err ≠ .none ∧
    ∃ t, exec (.lstep 0 0x20 false) (block { fullLink with err := .overrun, age := 1 }) = .next t ∧ (t.link 0).err = .none :=
  ⟨⟨_, rfl⟩, rfl, by decide, _, rfl, by decide⟩

theorem witness_OverrunOnlyByEnqueue :
    ∃ t, exec (.send 0 1) (block fullLink) = .next t ∧ ((block fullLink).link 0).err ≠ .overrun ∧ (t.link 0).err = .overrun :=
  ⟨_, rfl, by decide, by decide⟩

theorem witness_OutOfSyncOnlyByDequeue :
    ∃ t, exec (.lstep 0 0x20 true) (block { live with out := 0x10 }) = .next t ∧
      ((block { live with out := 0x10 }).link 0).err ≠ .outOfSync ∧ (t.link 0).err = .outOfSync := ⟨_, rfl, by decide, by decide⟩

/-- The states reached and the sequences issued are many; this is one of them. -/
theorem witness_StepKeepsInvariant :
    ((block fullLink).issue [⟨.call .lstep, 0, [0x20, 1]⟩]).inv ∧
    (∀ r ∈ ((block fullLink).issue [⟨.call .lstep, 0, [0x20, 1]⟩]).pending, r.external = true) ∧
    ∃ t, step ((block fullLink).issue [⟨.call .lstep, 0, [0x20, 1]⟩]) = .next t := ⟨by decide, by decide, _, rfl⟩

theorem witness_ControlStatesReached : params.wf := by decide

theorem witness_ResetNeighbourDeliversZero :
    params.wf ∧ ((block { live with out := 0x20, lastCmd := 1, rxState := 9 }).link 0).err = .none ∧
    ackOf ((block { live with out := 0x20, lastCmd := 1, rxState := 9 }).link 0).out = true ∧
    ((block { live with out := 0x20, lastCmd := 1, rxState := 9 }).link 0).lastCmd = 0x1#4 := by decide

theorem witness_ResetReceiverRepeatsOrLosesHalf : (block live).cfg.wf := by decide

theorem witness_StaleLinkSwallowsWork :
    ((block { live with age := 3 }).link 0).err = .none ∧ ((block { live with age := 3 }).link 0).cursor.val < queueCap ∧
    ¬ ((block { live with age := 3 }).link 0).liveWith params false := by decide

/-- Both clauses: with `por` and without. -/
theorem witness_ClockPerformsStrobesInOrder :
    (block live).pending = [] ∧ portsX5.por = false ∧ ({ portsX5 with por := true } : PortsIn).por = true := by decide

theorem witness_ExampleExchange : params.wf ∧ ∃ a, exec (.enq 0 0x1#4 0x2#4) (State.afterPor params) = .next a :=
  ⟨by decide, _, rfl⟩

theorem witness_ReciprocatingRoundTrip :
    params.wf ∧ ((block { fullLink with out := 0x02 }).link 0).err = .none ∧
    toggleOf ((block { fullLink with out := 0x02 }).link 0).out = toggleData ∧ ((block live).link 0).err = .none ∧
    toggleOf ((block live).link 0).out = toggleData ∧ ackOf ((block live).link 0).out = false ∧
    ((block live).link 0).cursor.val = 0 := by decide

/-- Two engines after `POR`, joined by the sampled register. -/
def joined : Joined .sampledRegister := ⟨⟨State.afterPor params, State.afterPor params⟩, ⟨[0x00], 0⟩, ⟨[0x00], 0⟩⟩

/-- The first clause's premises, and an operation that each end may do while no step may pass the channel by. -/
theorem witness_ReciprocatingIsSampled :
    joined.ba.values.getLast? = some (joined.engines.b.link 0).out ∧ joined.ba.seen < joined.ba.values.length ∧
    (joined.opA 0 (.enq 0 1 2)).isSome = true ∧ (joined.opB 0 (.lrst 0)).isSome = true ∧
    (joined.opA 0 (.lstep 0 0x3F true)).isSome = false := by decide

end Sys2Proof.Tests
end

section
/-! PROOF. Further facts about the operations on one link, in the order of `Machine/Ops.lean`, and what any operation of the block or
any step of the machine leaves alone. -/

namespace Sys2Proof.Machine

/-! ## The value a reset presents -/

@[simp] theorem ackOf_reset : ackOf 0x00#6 = false := rfl
@[simp] theorem toggleOf_reset : toggleOf 0x00#6 = false := rfl

/-! ## Registers that an operation on a link leaves alone -/

@[simp] theorem enq_rxState (e : Entry) (l : LinkState) : (l.enq e).1.rxState = l.rxState := by
  rcases enq_cases e l with ⟨_, h⟩ | ⟨_, _, h⟩ | ⟨_, _, h⟩ <;> rw [h]
  rfl

/-- On a link in error `ENQ` does nothing (R106). -/
theorem enq_eq_self_of_err_ne_none {e : Entry} {l : LinkState} (h : l.err ≠ .none) : (l.enq e).1 = l := by
  rcases enq_cases e l with ⟨_, he⟩ | ⟨hn, _⟩ | ⟨hn, _⟩
  · rw [he]
  · exact absurd hn h
  · exact absurd hn h

/-- With an entry in the queue `DEQ` raises nothing (R104). -/
theorem deq_err_of_pos {l : LinkState} (h : 1 ≤ l.cursor.val) : l.deq.err = l.err := by
  rcases deq_cases l with ⟨hc, _⟩ | ⟨_, e⟩
  · omega
  · rw [e]

@[simp] theorem txphase_rxState (o v : U6) (l : LinkState) : (l.txphase o v).1.rxState = l.rxState := by
  rcases txphase_cases o v l with ⟨_, e⟩ | ⟨_, _, _, e⟩ | ⟨_, _, _, e⟩ | ⟨_, _, _, e⟩ | ⟨_, _, _, e⟩ <;> rw [e] <;> simp

/-- `rx_state` after the receive phase differs only when a new data half came under `CMD_UPDATE_STATE`, and is its payload (R23). -/
theorem rxphase_rxState_of_ne {o v : U6} {l : LinkState} (h : (l.rxphase o v).1.rxState ≠ l.rxState) :
    l.lastCmd = cmdUpdateState ∧ toggleOf v = toggleData ∧ ackOf o = true ∧ (l.rxphase o v).1.rxState = payloadOf v := by
  rcases rxphase_cases o v l with ⟨_, e⟩ | ⟨_, _, e⟩ | ⟨hv, ho, e⟩
  · exact absurd (by rw [e]) h
  · exact absurd (by rw [e]) h
  · have hc : l.lastCmd = cmdUpdateState := by
      by_contra hc
      exact h (by rw [e, dispatch_rxState, if_neg hc])
    exact ⟨hc, hv, ho, by rw [e, dispatch_rxState, if_pos hc]⟩

/-! ## The phases and the step of a link -/

/-- The rows of R135's send side: the step holds what is on the wire, sends a command half (R126), sends a data half (R128), or is out
of sync (R127), each on what the receive phase left. -/
theorem phases_cases (p : Params) (v : U6) (l : LinkState) :
    ((ackOf v ≠ toggleOf l.out ∨ (toggleOf l.out = false ∧ l.cursor.val = 0)) ∧
      l.phases p v = { (l.rxphase l.out v).1 with out := withAck l.out (toggleOf v) }) ∨
    (ackOf v = toggleOf l.out ∧ toggleOf l.out = false ∧ 1 ≤ l.cursor.val ∧
      l.phases p v = { (l.rxphase l.out v).1 with out := channelEncode (toggleOf v) true l.q[0].cmd }) ∨
    (ackOf v = toggleOf l.out ∧ toggleOf l.out = true ∧ 1 ≤ l.cursor.val ∧
      l.phases p v = { (l.rxphase l.out v).1.deq with out := channelEncode (toggleOf v) false l.q[0].data }) ∨
    (ackOf v = toggleOf l.out ∧ toggleOf l.out = true ∧ l.cursor.val = 0 ∧
      l.phases p v = { (l.rxphase l.out v).1.raise .outOfSync with
        out := if p.oosCommit = true then channelEncode (toggleOf v) false l.q[0].data else l.out }) := by
  obtain ⟨hout, hq, hcur, _, _⟩ := rxphase_frame l.out v l
  have hp := phases_eq p v l
  have htx := txphase_cases (l.rxphase l.out v).2 v (l.rxphase l.out v).1
  simp only [rxphase_copy, toggleOf_withAck, ackOf_withAck, hq, hcur] at hp htx
  rcases htx with ⟨hg, e⟩ | ⟨_, ht, hc, e⟩ | ⟨hg, ht, hc, e⟩ | ⟨hg, ht, hc, e⟩ | ⟨hg, ht, hc, e⟩
  · exact .inl ⟨.inl hg, by simp [hp, e]⟩
  · exact .inl ⟨.inr ⟨ht, hc⟩, by simp [hp, e]⟩
  · exact .inr (.inl ⟨hg, ht, hc, by simp [hp, e]⟩)
  · exact .inr (.inr (.inl ⟨hg, ht, hc, by simp [hp, e]⟩))
  · refine .inr (.inr (.inr ⟨hg, ht, hc, ?_⟩))
    cases ho : p.oosCommit <;> simp [hp, e, ho, LinkState.raise, hout]

/-- The send phase writes no `rx_state`: the phases leave it as the receive phase does. -/
@[simp] theorem phases_rxState (p : Params) (v : U6) (l : LinkState) :
    (l.phases p v).rxState = (l.rxphase l.out v).1.rxState := by
  rcases phases_cases p v l with ⟨_, e⟩ | ⟨_, _, _, e⟩ | ⟨_, _, _, e⟩ | ⟨_, _, _, e⟩ <;> rw [e] <;> simp

/-- The age the model's `AGEUPD` leaves is the age that the rule R150 gives. -/
theorem ageupd_age_eq_ageAfter (p : Params) (f : Bit) (l : LinkState) : (l.ageupd p f).age = l.ageAfter p f := by
  cases f
  · simp only [ageupd_age, LinkState.ageAfter]; grind
  · rfl

/-- A step finds a link not stale exactly when it finds it live in the words of R12 and R152. -/
theorem stale_ageupd_eq_false {p : Params} {f : Bit} {l : LinkState} : (l.ageupd p f).stale p = false ↔ l.liveWith p f := by
  rw [stale_eq_false, ageupd_age_eq_ageAfter]

/-- `rx_state` after a step of the link differs only when the step was live and without error, and its receive phase took a data half
under `CMD_UPDATE_STATE` (R23). -/
theorem lstep_rxState_of_ne {p : Params} {v : U6} {f : Bit} {l : LinkState} (h : (l.lstep p v f).rxState ≠ l.rxState) :
    l.liveWith p f ∧ l.err = .none ∧ l.lastCmd = cmdUpdateState ∧ toggleOf v = toggleData ∧ ackOf l.out = true ∧
      (l.lstep p v f).rxState = payloadOf v := by
  rcases lstep_cases p v f l with ⟨_, e⟩ | ⟨_, _, e⟩ | ⟨hs, hn, e⟩
  · exact absurd (by rw [e]; rfl) h
  · exact absurd (by rw [e]; rfl) h
  · rw [e, phases_rxState] at h ⊢
    obtain ⟨hc, hv, ho, hx⟩ := rxphase_rxState_of_ne (l := l.ageupd p f) h
    exact ⟨stale_ageupd_eq_false.1 hs, hn, hc, hv, ho, hx⟩

/-! ## The block and the machine -/

/-- No operation changes the constants or the requests that wait. -/
theorem exec_frame {ins : Instr} {s t : State} (h : exec ins s = .next t) : t.cfg = s.cfg ∧ t.pending = s.pending := by
  cases ins <;> (cases h; exact ⟨rfl, rfl⟩)

/-- The operation writes link `i` and the result, as `f` of the constants and of that link. -/
def ActsOn (ins : Instr) (i : Link) (f : Params → LinkState → LinkState × Result) : Prop :=
  ∀ s : State, exec ins s = .next ((s.setLink i (f s.cfg (s.link i)).1).answer (f s.cfg (s.link i)).2)

/-- A read acts on its link by leaving it as it is (R55). -/
theorem actsOn_of_read {ins : Instr} {i : Link} (r : Params → LinkState → Result)
    (h : ∀ s, exec ins s = .next (s.answer (r s.cfg (s.link i)))) : ActsOn ins i fun p l => (l, r p l) :=
  fun s => by rw [h, setLink_link]

/-- An operation on one link is a function of the constants and of that link (R20). -/
theorem exists_actsOn {ins : Instr} {i : Link} (h : ins.linkOf = some i) : ∃ f, ActsOn ins i f := by
  cases ins <;> cases h
  case errNone => exact ⟨_, actsOn_of_read (fun _ l => .truth (l.err.code == 0#2)) fun _ => rfl⟩
  case errOverrun => exact ⟨_, actsOn_of_read (fun _ l => .truth (l.err.code == 1#2)) fun _ => rfl⟩
  case errOutOfSync => exact ⟨_, actsOn_of_read (fun _ l => .truth (l.err.code == 2#2)) fun _ => rfl⟩
  case qhead => exact ⟨_, actsOn_of_read (fun _ l => .entry l.qhead) fun _ => rfl⟩
  case stale => exact ⟨_, actsOn_of_read (fun p l => .truth (l.stale p)) fun _ => rfl⟩
  case rdstale => exact ⟨_, actsOn_of_read (fun p l => .truth (l.stale p)) fun _ => rfl⟩
  case rdstate => exact ⟨_, actsOn_of_read (fun _ l => .value4 l.rxState) fun _ => rfl⟩
  case rderr => exact ⟨_, actsOn_of_read (fun _ l => .errState l.err) fun _ => rfl⟩
  case rdout => exact ⟨_, actsOn_of_read (fun _ l => .value6 l.out) fun _ => rfl⟩
  case halfCmd a c => exact ⟨fun p l => (l.lstep p (channelEncode a toggleCommand c) true, .nothing), fun _ => rfl⟩
  case halfData a d => exact ⟨fun p l => (l.lstep p (channelEncode a toggleData d) true, .nothing), fun _ => rfl⟩
  case lstep v g => exact ⟨fun p l => (l.lstep p v g, .nothing), fun _ => rfl⟩
  case ageupd g => exact ⟨fun p l => (l.ageupd p g, .nothing), fun _ => rfl⟩
  case deq => exact ⟨fun _ l => (l.deq, .nothing), fun _ => rfl⟩
  case lrst => exact ⟨fun _ l => (l.lrst, .nothing), fun _ => rfl⟩
  case enq c d => exact ⟨fun _ l => ((l.enq ⟨c, d⟩).1, .truth (l.enq ⟨c, d⟩).2), fun _ => rfl⟩
  case send d => exact ⟨fun _ l => ((l.enq ⟨cmdUpdateState, d⟩).1, .truth (l.enq ⟨cmdUpdateState, d⟩).2), fun _ => rfl⟩
  case rxphase o v => exact ⟨fun _ l => ((l.rxphase o v).1, .value6 (l.rxphase o v).2), fun _ => rfl⟩
  case txphase o v =>
    exact ⟨fun _ l => ((l.txphase o v).1, .sent (l.txphase o v).2.1 (l.txphase o v).2.2), fun _ => rfl⟩
  all_goals exact ⟨fun _ l => (l.dataUnder _ _, .nothing), fun _ => rfl⟩

/-- A step that goes on holds the state when nothing is issued, or performs the oldest request on the state without it. -/
theorem step_cases {s t : State} (h : step s = .next t) :
    (s.pending = [] ∧ t = s) ∨
    ∃ r rest ins, s.pending = r :: rest ∧ decode r = .ok ins ∧ exec ins { s with pending := rest } = .next t := by
  cases hp : s.pending with
  | nil => simp only [step, fetch, hp, Host.Outcome.next.injEq] at h; exact .inl ⟨rfl, h.symm⟩
  | cons r rest =>
    simp only [step, fetch, hp] at h
    cases hd : decode r with
    | ok ins => rw [hd] at h; exact .inr ⟨r, rest, ins, rfl, hd, h⟩
    | error e => rw [hd] at h; cases e <;> cases h

/-- A request that agents issue decodes to an operation that is not INTERNAL (R56, R78). -/
theorem isInternal_of_external {r : Request} {ins : Instr} (h : r.external = true) (hd : decode r = .ok ins) :
    ins.isInternal = false := by
  simpa [Request.external, hd] using h

/-! ## The invariant of R34, operation by operation -/

theorem afterPor_inv (p : Params) : (LinkState.afterPor p).inv p := by
  refine ⟨?_, ?_, ?_, ?_⟩ <;> simp [LinkState.afterPor]

theorem lrst_inv {p : Params} {l : LinkState} (h : l.inv p) : l.lrst.inv p := by
  obtain ⟨_, _, _, hage⟩ := h
  refine ⟨?_, ?_, ?_, ?_⟩ <;> simp [hage]

theorem por_eq_afterPor (p : Params) (l : LinkState) : l.por p = LinkState.afterPor p := rfl

theorem ageupd_inv {p : Params} {l : LinkState} (f : Bit) (h : l.inv p) : (l.ageupd p f).inv p := by
  obtain ⟨hover, hcmd, hsync, _⟩ := h
  exact ⟨hover, hcmd, hsync, by cases f <;> simp⟩

theorem enq_inv {p : Params} {l : LinkState} (e : Entry) (h : l.inv p) : (l.enq e).1.inv p := by
  rcases enq_cases e l with ⟨_, he⟩ | ⟨_, hc, he⟩ | ⟨hn, _, he⟩ <;> rw [he]
  · exact h
  · obtain ⟨_, _, _, hage⟩ := h
    exact ⟨fun _ => hc, by simp, by simp, hage⟩
  · obtain ⟨_, _, _, hage⟩ := h
    exact ⟨by simp [hn], by simp, by simp [hn], hage⟩

/-- (I-c) keeps the phases from the out-of-sync case of R127. -/
theorem phases_inv {p : Params} {l : LinkState} (v : U6) (h : l.inv p) (hn : l.err = .none) : (l.phases p v).inv p := by
  obtain ⟨_, hcmd, _, hage⟩ := h
  obtain ⟨_, _, hcur, herr, hage'⟩ := rxphase_frame l.out v l
  rcases phases_cases p v l with ⟨_, e⟩ | ⟨_, _, hc, e⟩ | ⟨_, _, hc, e⟩ | ⟨_, ht, hc, _⟩
  · rw [e]
    exact ⟨by simp [herr, hn], fun _ => by simpa [hcur] using hcmd hn, by simp [herr, hn], by simpa [hage'] using hage⟩
  · rw [e]
    exact ⟨by simp [herr, hn], by simp [hcur, hc], by simp [herr, hn], by simpa [hage'] using hage⟩
  · have hdeq : (l.rxphase l.out v).1.deq.err = .none := by rw [deq_err_of_pos (by rwa [hcur]), herr, hn]
    rw [e]
    exact ⟨by simp [hdeq], by simp, by simp [hdeq], by simpa [hage'] using hage⟩
  · have := hcmd hn ht
    omega

theorem lstep_inv {p : Params} {l : LinkState} (v : U6) (f : Bit) (h : l.inv p) : (l.lstep p v f).inv p := by
  rcases lstep_cases p v f l with ⟨_, e⟩ | ⟨_, _, e⟩ | ⟨_, hn, e⟩ <;> rw [e]
  · exact lrst_inv (ageupd_inv f h)
  · exact ageupd_inv f h
  · exact phases_inv v (ageupd_inv f h) hn

/-- An operation that agents issue keeps the invariant (R34). -/
theorem exec_keeps_inv {ins : Instr} {s t : State} (h : exec ins s = .next t) (hx : ins.isInternal = false) (hs : s.inv) :
    t.inv := by
  obtain ⟨hcfg, _⟩ := exec_frame h
  obtain ⟨hwf, hlinks⟩ := hs
  rw [State.inv, hcfg]
  refine ⟨hwf, fun i => ?_⟩
  have hi := hlinks i
  rcases exec_link h i with e | ⟨c, d, _, rfl⟩ | ⟨en, e, _⟩ | ⟨_, rfl⟩ | ⟨_, _, _, rfl⟩ | ⟨_, _, _, rfl⟩ | ⟨v, f, e, _⟩ |
    ⟨_, _, rfl⟩ | ⟨e, _⟩ | ⟨e, _⟩
  · rw [e]; exact hi
  · simp at hx
  · rw [e]; exact enq_inv en hi
  · cases hx
  · cases hx
  · cases hx
  · rw [e]; exact lstep_inv v f hi
  · cases hx
  · rw [e]; exact lrst_inv hi
  · rw [e, por_eq_afterPor]; exact afterPor_inv s.cfg

theorem state_afterPor_inv {p : Params} (hp : p.wf) : (State.afterPor p).inv :=
  ⟨hp, fun i => by rw [afterPor_link]; exact afterPor_inv p⟩

end Sys2Proof.Machine
end

section
/-! PROOF. The obligations of 10_state.md. -/

namespace Sys2Proof.Machine

/-! ## The invariant -/

/-- Settles O52: the request performed is an agent's, so `exec_keeps_inv` applies to it, and those still waiting waited before. -/
theorem stepKeepsInvariant : Obligations.StepKeepsInvariant := by
  unfold Obligations.StepKeepsInvariant
  rintro s t ⟨hinv, hext⟩ h
  rcases step_cases h with ⟨_, rfl⟩ | ⟨r, rest, ins, hp, hd, hx⟩
  · exact ⟨hinv, hext⟩
  · rw [hp, List.forall_mem_cons] at hext
    obtain ⟨hr, hrest⟩ := hext
    obtain ⟨_, hpend⟩ := exec_frame hx
    exact ⟨exec_keeps_inv hx (isInternal_of_external hr hd) hinv, by rwa [hpend]⟩

/-- Settles O51. -/
theorem invariantAtReset : Obligations.InvariantAtReset :=
  ⟨state_afterPor_inv config_params_wf, by simp [State.reset]⟩

/-- Settles O45: the fields of `LinkState.afterPor`; the link is stale since the limit is at most `AGE_MAX`. -/
theorem resetStateFollowsTable : Obligations.ResetStateFollowsTable := by
  unfold Obligations.ResetStateFollowsTable State.reset
  obtain ⟨hw, he, hmax⟩ := config_params_wf
  refine ⟨rfl, ⟨hw, he, hmax⟩, fun i => ?_⟩
  rw [afterPor_link]
  exact ⟨rfl, rfl, rfl, rfl, rfl, fun k => by simp [LinkState.afterPor], rfl, hmax⟩

/-! ## Who writes what -/

/-- Settles O23: of the operations that `exec_link` names, those that reach `rx_state` are the receive phase, the step that contains
it, the dispatch of a data half, and `POR`. -/
theorem rxStateWrittenOnlyByReceive : Obligations.RxStateWrittenOnlyByReceive := by
  unfold Obligations.RxStateWrittenOnlyByReceive
  intro s t i ins h hne
  rcases exec_link h i with e | ⟨c, d, e, hins⟩ | ⟨_, e, _⟩ | ⟨e, _⟩ | ⟨o, v, e, hins⟩ | ⟨_, _, e, _⟩ | ⟨v, f, e, hs⟩ |
    ⟨_, e, _⟩ | ⟨e, _⟩ | ⟨e, hins⟩ <;> rw [e] at hne ⊢
  · exact absurd rfl hne
  · rcases dataUnder_cases c d (s.link i) with he | ⟨hc, rfl, ho, he⟩ <;> rw [he] at hne ⊢
    · exact absurd rfl hne
    · exact .inr ⟨hc, .inr (.inr ⟨d, hins, ho, rfl⟩)⟩
  · exact absurd (enq_rxState ..) hne
  · exact absurd (deq_rxState _) hne
  · obtain ⟨hc, hv, ho, hx⟩ := rxphase_rxState_of_ne hne
    exact .inr ⟨hc, .inr (.inl ⟨o, v, hins, hv, ho, hx⟩)⟩
  · exact absurd (txphase_rxState ..) hne
  · obtain ⟨hlive, hn, hc, hv, ho, hx⟩ := lstep_rxState_of_ne hne
    exact .inr ⟨hc, .inl ⟨v, f, hs, hlive, hn, hv, ho, hx⟩⟩
  · exact absurd (ageupd_rxState ..) hne
  · exact absurd (lrst_rxState _) hne
  · exact .inl ⟨hins, rfl⟩

/-- Settles O46: by `exists_actsOn` the operation is a function of its own link and the constants. -/
theorem operationTouchesOnlyItsLink : Obligations.OperationTouchesOnlyItsLink := by
  unfold Obligations.OperationTouchesOnlyItsLink
  intro ins i hi
  obtain ⟨f, hf⟩ := exists_actsOn hi
  refine ⟨fun s t h => ?_, fun s s' t t' h h' hl hc => ?_⟩
  · rw [hf] at h
    cases h
    exact ⟨fun j hj => by simp [hj], rfl, rfl⟩
  · rw [hf] at h h'
    cases h
    cases h'
    simp [hl, hc]

/-- Settles O48: on a link in error an agent's operation either resets the link or leaves `err` alone (R106, R129). -/
theorem errorsStickUntilReset : Obligations.ErrorsStickUntilReset := by
  unfold Obligations.ErrorsStickUntilReset
  intro s t i ins h hx herr
  rcases exec_link h i with e | ⟨c, d, _, rfl⟩ | ⟨_, e, _⟩ | ⟨_, rfl⟩ | ⟨_, _, _, rfl⟩ | ⟨_, _, _, rfl⟩ | ⟨v, f, e, hs⟩ |
    ⟨_, _, rfl⟩ | ⟨e, hins⟩ | ⟨e, rfl⟩
  · exact .inl (by rw [e])
  · simp at hx
  · exact .inl (by rw [e, enq_eq_self_of_err_ne_none herr])
  · cases hx
  · cases hx
  · cases hx
  · rcases lstep_cases s.cfg v f (s.link i) with ⟨_, he⟩ | ⟨_, _, he⟩ | ⟨_, hn, _⟩
    · refine .inr ⟨by simp [e, he], by simp [e, he], by simp [e, he], ?_⟩
      rcases hs with rfl | ⟨a, c, rfl, _⟩ | ⟨a, d, rfl, _⟩ | ⟨vs, fs, rfl, _⟩ <;> simp
    · exact .inl (by simp [e, he])
    · exact absurd hn herr
  · cases hx
  · refine .inr ⟨by simp [e], by simp [e], by simp [e], ?_⟩
    rcases hins with rfl | rfl <;> simp
  · exact .inr ⟨by rw [e]; rfl, by rw [e]; rfl, by rw [e]; rfl, by simp⟩

/-! ## The reachable control states -/

/-- The invariant holds of every state that agents can reach (R34). -/
theorem reachable_inv {p : Params} (hp : p.wf) {s : State} (h : Reachable p s) : s.inv := by
  induction h with
  | por => exact state_afterPor_inv hp
  | op s t ins _ hx ht ih => exact exec_keeps_inv ht hx ih

/-- The constants of a reachable state are those it started with. -/
theorem reachable_cfg {p : Params} {s : State} (h : Reachable p s) : s.cfg = p := by
  induction h with
  | por => rfl
  | op s t ins _ _ ht ih => rw [(exec_frame ht).1, ih]

/-- On a link that meets the invariant the control projection is one of those R34 lists. -/
theorem controlReachable_of_inv {p : Params} {l : LinkState} (h : l.inv p) : controlReachable l.control = true := by
  obtain ⟨hover, hcmd, hsync, _⟩ := h
  cases he : l.err with
  | none =>
    cases ht : toggleOf l.out with
    | false => simp [LinkState.control, controlReachable, he, ht]
    | true => simp [LinkState.control, controlReachable, he, ht, hcmd he ht]
  | overrun => simp [LinkState.control, controlReachable, he, hover he]
  | outOfSync => exact absurd he hsync

/-- While the sampled ack does not match, the phases set the ack alone (R124, R125). -/
theorem phases_control_of_blocked {p : Params} {v : U6} {l : LinkState} (h : ackOf v ≠ toggleOf l.out) :
    (l.phases p v).control = (toggleOf v, toggleOf l.out, l.cursor, l.err) := by
  obtain ⟨_, _, hcur, herr, _⟩ := rxphase_frame l.out v l
  rcases phases_cases p v l with ⟨_, e⟩ | ⟨hg, _⟩ | ⟨hg, _⟩ | ⟨hg, _⟩
  · simp [e, LinkState.control, hcur, herr]
  · exact absurd hg h
  · exact absurd hg h
  · exact absurd hg h

/-- With the gate open and work in the queue, the phases present a command half after a data half (R126). -/
theorem phases_control_of_command {p : Params} {v : U6} {l : LinkState} (hg : ackOf v = toggleOf l.out)
    (ht : toggleOf l.out = false) (hc : 1 ≤ l.cursor.val) : (l.phases p v).control = (toggleOf v, true, l.cursor, l.err) := by
  obtain ⟨_, _, hcur, herr, _⟩ := rxphase_frame l.out v l
  rcases phases_cases p v l with ⟨hb | ⟨_, hz⟩, _⟩ | ⟨_, _, _, e⟩ | ⟨_, hk, _⟩ | ⟨_, hk, _⟩
  · exact absurd hg hb
  · omega
  · simp [e, LinkState.control, hcur, herr]
  · rw [ht] at hk; cases hk
  · rw [ht] at hk; cases hk

/-- A control value that some reachable state shows on link `i`. -/
def ControlReached (p : Params) (i : Link) (c : Bit × Bit × Cursor × Err) : Prop :=
  ∃ s : State, Reachable p s ∧ (s.link i).control = c

section
variable {p : Params} {i : Link} {a t : Bit}

theorem controlReached_start : ControlReached p i (false, false, 0, .none) :=
  ⟨State.afterPor p, .por, by rw [afterPor_link]; simp [LinkState.control, LinkState.afterPor]⟩

/-- What an agent's operation makes of link `i` in a reachable state is reached again. -/
theorem controlReached_op {s : State} (hs : Reachable p s) {ins : Instr} (hx : ins.isInternal = false) {l : LinkState} {r : Result}
    (h : exec ins s = .next ((s.setLink i l).answer r)) : ControlReached p i l.control :=
  ⟨_, .op s _ ins hs hx h, by rw [answer_link, link_setLink_self]⟩

/-- `ENQ` with a free slot adds 1 to the cursor (R101). -/
theorem controlReached_enq {c : Cursor} (hc : c.val < queueCap) (h : ControlReached p i (a, t, c, .none)) :
    ControlReached p i (a, t, ⟨c.val + 1, Nat.succ_lt_succ hc⟩, .none) := by
  obtain ⟨s, hs, hctl⟩ := h
  obtain ⟨rfl, rfl, rfl, hn⟩ : _ ∧ _ ∧ _ ∧ _ := by simpa [LinkState.control] using hctl
  have hr := controlReached_op (i := i) hs (ins := .enq i 0#4 0#4) rfl rfl
  rcases enq_cases ⟨0#4, 0#4⟩ (s.link i) with ⟨he, _⟩ | ⟨_, hf, _⟩ | ⟨_, _, e⟩
  · exact absurd hn he
  · omega
  · simpa [e, LinkState.control, hn] using hr

/-- `ENQ` on a full queue raises `OVERRUN` (R102). -/
theorem controlReached_overrun {c : Cursor} (hc : c.val = queueCap) (h : ControlReached p i (a, t, c, .none)) :
    ControlReached p i (a, t, c, .overrun) := by
  obtain ⟨s, hs, hctl⟩ := h
  obtain ⟨rfl, rfl, rfl, hn⟩ : _ ∧ _ ∧ _ ∧ _ := by simpa [LinkState.control] using hctl
  have hr := controlReached_op (i := i) hs (ins := .enq i 0#4 0#4) rfl rfl
  rcases enq_cases ⟨0#4, 0#4⟩ (s.link i) with ⟨he, _⟩ | ⟨_, _, e⟩ | ⟨_, hf, _⟩
  · exact absurd hn he
  · simpa [e, LinkState.control] using hr
  · omega

/-- A fresh step of a link without error performs the phases. -/
theorem controlReached_phases (hp : p.wf) {s : State} (hs : Reachable p s) (hn : (s.link i).err = .none) (v : U6) :
    ControlReached p i (((s.link i).ageupd p true).phases p v).control := by
  have hr := controlReached_op (i := i) hs (ins := .lstep i v true) rfl rfl
  rw [reachable_cfg hs] at hr
  rcases lstep_cases p v true (s.link i) with ⟨hst, _⟩ | ⟨_, he, _⟩ | ⟨_, _, e⟩
  · rw [fresh_live hp] at hst; cases hst
  · exact absurd hn he
  · rwa [e] at hr

/-- A step whose sampled ack does not match gives the link either ack. -/
theorem controlReached_ack (hp : p.wf) {c : Cursor} (h : ControlReached p i (a, t, c, .none)) (b : Bit) :
    ControlReached p i (b, t, c, .none) := by
  obtain ⟨s, hs, hctl⟩ := h
  obtain ⟨rfl, rfl, rfl, hn⟩ : _ ∧ _ ∧ _ ∧ _ := by simpa [LinkState.control] using hctl
  have hr := controlReached_phases hp hs hn (channelEncode (!toggleOf (s.link i).out) b 0#4)
  rw [phases_control_of_blocked (by simp)] at hr
  simpa [hn] using hr

/-- A step whose sampled ack matches, with work in the queue, gives the link toggle 1. -/
theorem controlReached_command (hp : p.wf) {c : Cursor} (hc : 1 ≤ c.val) (h : ControlReached p i (a, false, c, .none)) :
    ControlReached p i (a, true, c, .none) := by
  obtain ⟨s, hs, hctl⟩ := h
  obtain ⟨rfl, ht, rfl, hn⟩ : _ ∧ _ ∧ _ ∧ _ := by simpa [LinkState.control] using hctl
  have hr := controlReached_phases hp hs hn (channelEncode false (ackOf (s.link i).out) 0#4)
  rw [phases_control_of_command (l := (s.link i).ageupd p true) (by simp [ht]) ht hc] at hr
  simpa [hn] using hr

/-- By `ENQ`s the cursor reaches any value from a smaller one. -/
theorem controlReached_cursor {b : Cursor} (h : ControlReached p i (a, t, b, .none)) :
    ∀ n, b.val ≤ n → ∀ hn : n < queueCap + 1, ControlReached p i (a, t, ⟨n, hn⟩, .none) := by
  intro n hbn
  induction n, hbn using Nat.le_induction with
  | base => exact fun _ => h
  | succ n _ ih => exact fun hn => controlReached_enq (Nat.lt_of_succ_lt_succ hn) (ih (Nat.lt_of_succ_lt hn))

/-- Every value without error that R34 lists is reached: set the ack, enqueue once and present a command half if the toggle is to be
1, and enqueue the rest. -/
theorem controlReached_none (hp : p.wf) {c : Cursor} (h : t = true → 1 ≤ c.val) : ControlReached p i (a, t, c, .none) := by
  have hack : ControlReached p i (a, false, 0, .none) := controlReached_ack hp controlReached_start a
  cases t with
  | false => exact controlReached_cursor hack c.val (Nat.zero_le _) c.isLt
  | true =>
    have hone : ControlReached p i (a, true, 1, .none) :=
      controlReached_command hp (Nat.le_refl 1) (controlReached_enq (by decide) hack)
    exact controlReached_cursor hone c.val (h rfl) c.isLt

/-- Every control value that R34 lists is reached. -/
theorem controlReached_of_controlReachable (hp : p.wf) {c : Bit × Bit × Cursor × Err} (h : controlReachable c = true) :
    ControlReached p i c := by
  obtain ⟨a, t, c, e⟩ := c
  cases e with
  | none =>
    refine controlReached_none hp fun ht => ?_
    simpa [controlReachable, ht] using h
  | overrun =>
    have hc : c.val = queueCap := by simpa [controlReachable] using h
    exact controlReached_overrun hc (controlReached_none hp fun _ => by rw [hc]; decide)
  | outOfSync => cases h

end

theorem mem_allControls (c : Bit × Bit × Cursor × Err) : c ∈ allControls := by
  obtain ⟨a, t, c, e⟩ := c
  cases e <;> revert a t c <;> decide

/-- Settles O53: the invariant bounds what is reached, and each listed value has a sequence of `ENQ`s and steps that reaches it. -/
theorem controlStatesReached : Obligations.ControlStatesReached := by
  unfold Obligations.ControlStatesReached
  refine ⟨fun p hp i c => ⟨?_, controlReached_of_controlReachable hp⟩, mem_allControls, by decide, by decide⟩
  rintro ⟨s, hs, rfl⟩
  obtain ⟨_, hlinks⟩ := reachable_inv hp hs
  exact controlReachable_of_inv (hlinks i)

end Sys2Proof.Machine
end

section
/-! PROOF. The decoder: what it makes of a request, by the checks of `WellFormed.lean`, and that it reads back what the encoder
writes. -/

namespace Sys2Proof

open Machine

/-! ## Links and operands -/

theorem linkOfNat_of_lt {n : Nat} (h : n < nLinks) (f : Link → Except DecodeError Instr) : linkOfNat n f = f ⟨n, h⟩ := dif_pos h

theorem linkOfNat_of_not_lt {n : Nat} (h : ¬ n < nLinks) (f : Link → Except DecodeError Instr) :
    linkOfNat n f = .error .linkOutOfRange := dif_neg h

@[simp] theorem linkOfNat_val (i : Link) (f : Link → Except DecodeError Instr) : linkOfNat i.val f = f i := linkOfNat_of_lt i.isLt f

/-- The operand reader `d` accepts lists of `n` containers, and refuses every other list for its length. -/
def ReadsOperands (n : Nat) (d : List Byte → Except DecodeError Instr) : Prop :=
  ∀ bytes, (bytes.length = n ∧ ∃ ins, d bytes = .ok ins) ∨ (bytes.length ≠ n ∧ d bytes = .error .operandCount)

theorem operands0_reads (ins : Instr) : ReadsOperands 0 fun bytes => operands0 bytes ins
  | [] => .inl ⟨rfl, _, rfl⟩
  | _ :: _ => .inr ⟨by simp, rfl⟩

theorem operands1_reads (f : Byte → Instr) : ReadsOperands 1 fun bytes => operands1 bytes f
  | [_] => .inl ⟨rfl, _, rfl⟩
  | [] | _ :: _ :: _ => .inr ⟨by simp, rfl⟩

theorem operands2_reads (f : Byte → Byte → Instr) : ReadsOperands 2 fun bytes => operands2 bytes f
  | [_, _] => .inl ⟨rfl, _, rfl⟩
  | [] | [_] | _ :: _ :: _ :: _ => .inr ⟨by simp, rfl⟩

theorem operands3_reads (f : Byte → Byte → Byte → Instr) : ReadsOperands 3 fun bytes => operands3 bytes f
  | [_, _, _] => .inl ⟨rfl, _, rfl⟩
  | [] | [_] | [_, _] | _ :: _ :: _ :: _ :: _ => .inr ⟨by simp, rfl⟩

theorem operandsCycle_reads : ReadsOperands (2 * nLinks) operandsCycle := by
  intro bytes
  unfold operandsCycle
  split
  · exact .inl ⟨rfl, _, rfl⟩
  · next hne =>
    refine .inr ⟨fun h => ?_, rfl⟩
    match bytes, h with
    | [_, _, _, _, _, _, _, _, _, _, _, _], _ => exact hne _ _ _ _ _ _ _ _ _ _ _ _ rfl

/-- A call reads its operands after its link operand, if it has one. -/
theorem decodeCall_reads (op : OpName) :
    (op.takesLink = true ∧ ∃ d : Link → List Byte → Except DecodeError Instr, (∀ i, ReadsOperands op.arity (d i)) ∧
      ∀ link bytes, decodeCall op link bytes = linkOfNat link fun i => d i bytes) ∨
    (op.takesLink = false ∧ ∀ link, ReadsOperands op.arity (decodeCall op link)) := by
  cases op with
  | encode => exact .inr ⟨rfl, fun _ => operands3_reads _⟩
  | decode => exact .inr ⟨rfl, fun _ => operands1_reads _⟩
  | cycle => exact .inr ⟨rfl, fun _ => operandsCycle_reads⟩
  | por | resetall => exact .inr ⟨rfl, fun _ => operands0_reads _⟩
  | enq | rxphase | txphase | lstep => exact .inl ⟨rfl, _, fun _ => operands2_reads _, fun _ _ => by rw [decodeCall]⟩
  | ageupd | send => exact .inl ⟨rfl, _, fun _ => operands1_reads _, fun _ _ => by rw [decodeCall]⟩
  | qhead | deq | stale | lrst | rdstate | rderr | rdout | rdstale =>
    exact .inl ⟨rfl, _, fun _ => operands0_reads _, fun _ _ => by rw [decodeCall]⟩

/-! ## The decoder, port by port -/

theorem decode_wire (link : Nat) (bytes : List Byte) :
    decode ⟨.wire, link, bytes⟩ = linkOfNat link fun i => operands1 bytes fun v => halfOfValue i (trunc6 v) := rfl

theorem decode_cmdType (link : Nat) (bytes : List Byte) :
    decode ⟨.cmdType, link, bytes⟩ =
      linkOfNat link fun i => operands2 bytes fun c d => commandTypeOf i (trunc4 c) (trunc4 d) := rfl

theorem decode_errCode (link : Nat) (bytes : List Byte) :
    decode ⟨.errCode, link, bytes⟩ = linkOfNat link fun i => decodeErrCode i bytes := rfl

theorem decode_call (op : OpName) (link : Nat) (bytes : List Byte) :
    decode ⟨.call op, link, bytes⟩ = decodeCall op link bytes := rfl

/-! ## The decoder by its checks -/

theorem wellFormed_iff {r : Request} : r.wellFormed = true ↔ r.linkOk = true ∧ r.operandsOk = true ∧ r.codeOk = true := by
  simp [Request.wellFormed, and_assoc]

/-- The first check that a request fails gives its rejection (R53(a), R77, log 14); a well-formed request is decoded. -/
def DecodesByChecks (r : Request) : Prop :=
  (r.linkOk = false ∧ decode r = .error .linkOutOfRange) ∨
  (r.linkOk = true ∧ r.operandsOk = false ∧ decode r = .error .operandCount) ∨
  (r.linkOk = true ∧ r.operandsOk = true ∧ r.codeOk = false ∧ decode r = .error .errCodeThree) ∨
  (r.wellFormed = true ∧ ∃ ins, decode r = .ok ins)

/-- With the link in order, a port that has no code to check rejects on the number of operands alone. -/
theorem decodesByChecks_of_reads {r : Request} {d : List Byte → Except DecodeError Instr} (hl : r.linkOk = true)
    (hc : r.codeOk = true) (hd : ReadsOperands r.port.arity d) (h : decode r = d r.bytes) : DecodesByChecks r := by
  rcases hd r.bytes with ⟨hn, ins, e⟩ | ⟨hn, e⟩
  · exact .inr (.inr (.inr ⟨wellFormed_iff.2 ⟨hl, by simpa [Request.operandsOk] using hn, hc⟩, ins, by rw [h, e]⟩))
  · exact .inr (.inl ⟨hl, by simpa [Request.operandsOk] using hn, by rw [h, e]⟩)

/-- A port with a link operand rejects a number that names no link, and else leaves the other checks to the rest of the decoder. -/
theorem decodesByChecks_of_link {r : Request} {f : Link → Except DecodeError Instr} (ht : r.port.takesLink = true)
    (h : decode r = linkOfNat r.link f) (hf : ∀ i, r.linkOk = true → decode r = f i → DecodesByChecks r) : DecodesByChecks r := by
  by_cases hn : r.link < nLinks
  · exact hf _ (by simp [Request.linkOk, hn]) (h.trans (linkOfNat_of_lt hn f))
  · exact .inl ⟨by simp [Request.linkOk, ht, hn], h.trans (linkOfNat_of_not_lt hn f)⟩

/-- The error code 3, and no other, is rejected (R77). -/
theorem errCodeOf_cases (i : Link) (c : U2) :
    (c = 3#2 ∧ errCodeOf i c = .error .errCodeThree) ∨ (c ≠ 3#2 ∧ ∃ ins, errCodeOf i c = .ok ins) := by
  have hc : c = 0#2 ∨ c = 1#2 ∨ c = 2#2 ∨ c = 3#2 := by revert c; decide
  rcases hc with rfl | rfl | rfl | rfl
  · exact .inr ⟨by decide, _, rfl⟩
  · exact .inr ⟨by decide, _, rfl⟩
  · exact .inr ⟨by decide, _, rfl⟩
  · exact .inl ⟨rfl, rfl⟩

theorem decodesByChecks (r : Request) : DecodesByChecks r := by
  obtain ⟨port, link, bytes⟩ := r
  cases port with
  | wire => exact decodesByChecks_of_link rfl (decode_wire ..) fun i hl h => decodesByChecks_of_reads hl rfl (operands1_reads _) h
  | cmdType =>
    exact decodesByChecks_of_link rfl (decode_cmdType ..) fun i hl h => decodesByChecks_of_reads hl rfl (operands2_reads _) h
  | errCode =>
    refine decodesByChecks_of_link rfl (decode_errCode ..) fun i hl h => ?_
    match bytes with
    | [c] =>
      rcases errCodeOf_cases i (trunc2 c) with ⟨hc, e⟩ | ⟨hc, ins, e⟩
      · exact .inr (.inr (.inl ⟨hl, rfl, by simp [Request.codeOk, hc], h.trans e⟩))
      · exact .inr (.inr (.inr ⟨wellFormed_iff.2 ⟨hl, rfl, by simp [Request.codeOk, hc]⟩, ins, h.trans e⟩))
    | [] | _ :: _ :: _ => exact .inr (.inl ⟨hl, by simp [Request.operandsOk, Port.arity], h⟩)
  | call op =>
    rcases decodeCall_reads op with ⟨ht, d, hd, h⟩ | ⟨ht, hd⟩
    · exact decodesByChecks_of_link ht (h link bytes) fun i hl hi => decodesByChecks_of_reads hl rfl (hd i) hi
    · exact decodesByChecks_of_reads (by simp [Request.linkOk, Port.takesLink, ht]) rfl (hd link) rfl

/-! ## The decoder reads back what the encoder writes -/

theorem decode_encodeWire (i : Link) (v : U6) : decode (encodeWire i v) = .ok (halfOfValue i v) := by
  simp [decode_wire, encodeWire, operands1]

theorem decode_encodeCommandType (i : Link) (c d : U4) : decode (encodeCommandType i c d) = .ok (commandTypeOf i c d) := by
  simp [decode_cmdType, encodeCommandType, operands2]

theorem decode_encodeErrCode (i : Link) (c : U2) : decode (encodeErrCode i c) = errCodeOf i c := by
  simp [decode_errCode, encodeErrCode, decodeErrCode]

theorem halfOfValue_command (i : Link) (a : Bit) (c : U4) :
    halfOfValue i (channelEncode a toggleCommand c) = .halfCmd i a c := by
  simp [halfOfValue, halfKind]

theorem halfOfValue_data (i : Link) (a : Bit) (d : U4) : halfOfValue i (channelEncode a toggleData d) = .halfData i a d := by
  simp [halfOfValue, halfKind]

/-- A vector over the links as the list of its values. -/
theorem links_toList {α : Type} (v : Vector α nLinks) : v.toList = [v[0], v[1], v[2], v[3], v[4], v[5]] := by
  apply List.ext_getElem
  · simp
  · intro k hk _
    have hk : k < 6 := by simpa using hk
    interval_cases k <;> rfl

theorem operandsCycle_encode (vs : Vector U6 nLinks) (fs : Vector Bit nLinks) :
    operandsCycle (vs.toList.map byteOfU6 ++ fs.toList.map byteOfBit) = .ok (.cycle vs fs) := by
  have hvs : #v[vs[0], vs[1], vs[2], vs[3], vs[4], vs[5]] = vs := Vector.toList_inj.1 (links_toList vs).symm
  have hfs : #v[fs[0], fs[1], fs[2], fs[3], fs[4], fs[5]] = fs := Vector.toList_inj.1 (links_toList fs).symm
  simp [links_toList, operandsCycle, hvs, hfs]

/-- Every instruction is decoded from its own request. -/
theorem decode_encode (ins : Instr) : decode (encode ins) = .ok ins := by
  cases ins with
  | halfCmd i a c => rw [encode, decode_encodeWire, halfOfValue_command]
  | halfData i a d => rw [encode, decode_encodeWire, halfOfValue_data]
  | ct0 | ctUpdateState | ct2 | ct3 | ct4 | ct5 | ct6 | ct7 | ct8 | ct9 | ctA | ctB | ctC | ctD | ctE | ctF =>
    rw [encode, decode_encodeCommandType]; rfl
  | errNone | errOverrun | errOutOfSync => rw [encode, decode_encodeErrCode]; rfl
  | cycle vs fs => exact operandsCycle_encode vs fs
  | encode => simp [encode, encodeBlockCall, decode_call, decodeCall, operands3]
  | decode => simp [encode, encodeBlockCall, decode_call, decodeCall, operands1]
  | por | resetall => rfl
  | enq | rxphase | txphase | lstep => simp [encode, encodeCall, decode_call, decodeCall, operands2]
  | ageupd | send => simp [encode, encodeCall, decode_call, decodeCall, operands1]
  | qhead | deq | stale | lrst | rdstate | rderr | rdout | rdstale =>
    simp [encode, encodeCall, decode_call, decodeCall, operands0]

end Sys2Proof
end

section
/-! PROOF. Sequences of operations: one step on what is issued, the operations of a list, and a list of operations on one link. -/

namespace Sys2Proof.Machine

/-! ## One operation and one step -/

/-- An operation completes, and what it does neither depends on the requests that wait nor changes them. -/
theorem exec_completes (ins : Instr) (s : State) :
    ∃ t, exec ins s = .next t ∧ ∀ rs, exec ins { s with pending := rs } = .next { t with pending := rs } := by
  cases ins <;> exact ⟨_, rfl, fun _ => rfl⟩

theorem step_of_nil {s : State} (h : s.pending = []) : step s = .next s := by
  simp [step, fetch, h]

theorem step_of_ok {s : State} {r : Request} {rest : List Request} {ins : Instr} (h : s.pending = r :: rest)
    (hd : decode r = .ok ins) : step s = exec ins { s with pending := rest } := by
  simp [step, fetch, h, hd]

theorem step_of_error {s : State} {r : Request} {rest : List Request} {e : DecodeError} (h : s.pending = r :: rest)
    (hd : decode r = .error e) : step s = stopFor e := by
  simp [step, fetch, h, hd]

/-! ## The operations of a list -/

theorem execAll_cons {ins : Instr} {s t : State} (h : exec ins s = .next t) (ops : List Instr) :
    execAll (ins :: ops) s = execAll ops t := by
  simp [execAll, h]

theorem execAll_singleton (ins : Instr) (s : State) : execAll [ins] s = exec ins s := by
  obtain ⟨t, ht, _⟩ := exec_completes ins s
  rw [execAll_cons ht, ht, execAll]

theorem execAll_append {xs : List Instr} {s t : State} (h : execAll xs s = .next t) (ys : List Instr) :
    execAll (xs ++ ys) s = execAll ys t := by
  induction xs generalizing s with
  | nil => cases h; rfl
  | cons x xs ih =>
    obtain ⟨u, hu, _⟩ := exec_completes x s
    rw [execAll_cons hu] at h
    rw [List.cons_append, execAll_cons hu, ih h]

/-- When each of the operations returns nothing, so does the list, if there is one. -/
theorem execAll_result_nothing {ops : List Instr} (h : ∀ x ∈ ops, ∀ s t, exec x s = .next t → t.result = .nothing) {s t : State}
    (hs : s.result = .nothing ∨ ops ≠ []) (ht : execAll ops s = .next t) : t.result = .nothing := by
  induction ops generalizing s with
  | nil => cases ht; simpa using hs
  | cons x xs ih =>
    rw [List.forall_mem_cons] at h
    obtain ⟨hx, hxs⟩ := h
    obtain ⟨u, hu, _⟩ := exec_completes x s
    rw [execAll_cons hu] at ht
    exact ih hxs (.inl (hx s u hu)) ht

/-! ## A list of operations on one link -/

/-- Performed on any state, the operations write link `i` alone, as `g` of the constants and of that link. -/
def RunsOn (ops : List Instr) (i : Link) (g : Params → LinkState → LinkState) : Prop :=
  ∀ s : State, ∃ t, execAll ops s = .next t ∧ s.onlyLink i t ∧ t.link i = g s.cfg (s.link i)

theorem runsOn_nil (i : Link) : RunsOn [] i fun _ l => l :=
  fun s => ⟨s, rfl, ⟨fun _ _ => rfl, rfl, rfl⟩, rfl⟩

theorem runsOn_singleton {x : Instr} {i : Link} {f : Params → LinkState → LinkState × Result} (h : ActsOn x i f) :
    RunsOn [x] i fun p l => (f p l).1 :=
  fun s => ⟨_, (execAll_singleton x s).trans (h s), ⟨fun j hj => by simp [hj], rfl, rfl⟩, by simp⟩

theorem runsOn_lrst (i : Link) : RunsOn [.lrst i] i fun _ l => l.lrst :=
  runsOn_singleton (f := fun _ l => (l.lrst, .nothing)) fun _ => rfl

theorem runsOn_enq (i : Link) (c d : U4) : RunsOn [.enq i c d] i fun _ l => (l.enq ⟨c, d⟩).1 :=
  runsOn_singleton (f := fun _ l => ((l.enq ⟨c, d⟩).1, .truth (l.enq ⟨c, d⟩).2)) fun _ => rfl

theorem runsOn_lstep (i : Link) (v : U6) (b : Bit) : RunsOn [.lstep i v b] i fun p l => l.lstep p v b :=
  runsOn_singleton (f := fun p l => (l.lstep p v b, .nothing)) fun _ => rfl

/-- A strobe (R35): the operations are performed or not. -/
theorem runsOn_ite {xs : List Instr} {i : Link} {g : Params → LinkState → LinkState} (h : RunsOn xs i g) (b : Bool) :
    RunsOn (if b then xs else []) i fun p l => if b then g p l else l := by
  cases b
  · exact runsOn_nil i
  · exact h

theorem runsOn_append {xs ys : List Instr} {i : Link} {g h : Params → LinkState → LinkState} (hx : RunsOn xs i g)
    (hy : RunsOn ys i h) : RunsOn (xs ++ ys) i fun p l => h p (g p l) := by
  intro s
  obtain ⟨t, et, ⟨hother, hcfg, hpend⟩, hi⟩ := hx s
  obtain ⟨u, eu, ⟨hother', hcfg', hpend'⟩, hi'⟩ := hy t
  refine ⟨u, (execAll_append et ys).trans eu, ⟨fun j hj => ?_, hcfg'.trans hcfg, hpend'.trans hpend⟩, ?_⟩
  · rw [hother' j hj, hother j hj]
  · rw [hi', hcfg, hi]

theorem mem_allLinks (i : Link) : i ∈ allLinks := by revert i; decide

theorem nodup_allLinks : allLinks.Nodup := by decide

/-- Operations on one link after the other, in any order of distinct links: each link is as its own operations leave it, performed
alone (R58). -/
theorem execAll_flatMap {f : Link → List Instr} {g : Link → Params → LinkState → LinkState} (h : ∀ i, RunsOn (f i) i (g i))
    {order : List Link} (hd : order.Nodup) (s : State) :
    ∃ t, execAll (order.flatMap f) s = .next t ∧ t.cfg = s.cfg ∧ t.pending = s.pending ∧
      ∀ i, t.link i = if i ∈ order then g i s.cfg (s.link i) else s.link i := by
  induction order generalizing s with
  | nil => exact ⟨s, rfl, rfl, rfl, fun i => by simp⟩
  | cons k order ih =>
    rw [List.nodup_cons] at hd
    obtain ⟨hk, hd⟩ := hd
    obtain ⟨t, et, ⟨hother, hcfg, hpend⟩, hkt⟩ := h k s
    obtain ⟨u, eu, hcfg', hpend', hu⟩ := ih hd t
    refine ⟨u, (execAll_append et _).trans eu, hcfg'.trans hcfg, hpend'.trans hpend, fun i => ?_⟩
    rw [hu]
    by_cases hi : i = k
    · subst hi; simp [hk, hkt]
    · simp [hi, hother, hcfg]

/-! ## The strobes of one link in a clock -/

/-- The link after the clock's `LRST`, if it is strobed (R57). -/
def LinkIn.afterRst (x : LinkIn) (l : LinkState) : LinkState := if x.rstReq then l.lrst else l

/-- The link after the clock's `ENQ`, if it is strobed (R57). -/
def LinkIn.afterEnq (x : LinkIn) (l : LinkState) : LinkState := if x.enqValid then (l.enq ⟨x.enqCmd, x.enqData⟩).1 else l

/-- The link after the clock's `LSTEP`, if it is strobed (R57). -/
def LinkIn.afterTick (x : LinkIn) (tick : Bit) (p : Params) (l : LinkState) : LinkState :=
  if tick then l.lstep p x.inValue x.inFresh else l

/-- The strobes of one link act in the order of R57. -/
theorem linkIn_ops_runsOn (x : LinkIn) (tick : Bit) (i : Link) :
    RunsOn (x.ops tick i) i fun p l => x.afterTick tick p (x.afterEnq (x.afterRst l)) :=
  runsOn_append (runsOn_append (runsOn_ite (runsOn_lrst i) x.rstReq) (runsOn_ite (runsOn_enq i x.enqCmd x.enqData) x.enqValid))
    (runsOn_ite (runsOn_lstep i x.inValue x.inFresh) tick)

theorem enqOk_eq {p : PortsIn} (h : p.por = false) (i : Link) (l : LinkState) :
    p.enqOk i l = if p.links[i.val].enqValid then
      some ((p.links[i.val].afterRst l).enq ⟨p.links[i.val].enqCmd, p.links[i.val].enqData⟩).2 else none := by
  cases hv : p.links[i.val].enqValid <;> simp [PortsIn.enqOk, h, hv, LinkIn.afterRst]

end Sys2Proof.Machine
end

section
/-! PROOF. The step of a link without error that finds it live, and what joined engines do. -/

namespace Sys2Proof.Machine

/-! ## Acknowledged steps -/

/-- A live step of a link without error performs the phases (R130). -/
theorem lstep_of_live {p : Params} {f : Bit} {l : LinkState} (hn : l.err = .none) (hlive : l.liveWith p f) (v : U6) :
    l.lstep p v f = (l.ageupd p f).phases p v := by
  have hs := stale_ageupd_eq_false.2 hlive
  rcases lstep_cases p v f l with ⟨hst, _⟩ | ⟨_, he, _⟩ | ⟨_, _, e⟩
  · rw [hs] at hst; cases hst
  · exact absurd hn he
  · exact e

/-- With an entry in the queue `DEQ` takes 1 from the cursor (R104). -/
theorem deq_cursor_of_pos {l : LinkState} (h : 1 ≤ l.cursor.val) : l.deq.cursor.val = l.cursor.val - 1 := by
  rcases deq_cases l with ⟨hz, _⟩ | ⟨_, e⟩
  · omega
  · rw [e]

/-- With the gate open and a command half on the wire, the phases dequeue (R128). -/
theorem phases_cursor_of_command_acked {p : Params} {v : U6} {l : LinkState} (hg : ackOf v = toggleOf l.out)
    (ht : toggleOf l.out = true) (hc : 1 ≤ l.cursor.val) : (l.phases p v).cursor.val = l.cursor.val - 1 := by
  obtain ⟨_, _, hcur, _, _⟩ := rxphase_frame l.out v l
  rcases phases_cases p v l with ⟨hb | ⟨hk, _⟩, _⟩ | ⟨_, hk, _⟩ | ⟨_, _, _, e⟩ | ⟨_, _, hz, _⟩
  · exact absurd hg hb
  · rw [ht] at hk; cases hk
  · rw [ht] at hk; cases hk
  · rw [e, deq_cursor_of_pos (by rwa [hcur]), hcur]
  · omega

/-- A live acknowledged step with a command half on the wire dequeues. -/
theorem lstep_cursor_of_command_acked {p : Params} {v : U6} {f : Bit} {l : LinkState} (hn : l.err = .none)
    (hlive : l.liveWith p f) (hg : ackOf v = toggleOf l.out) (ht : toggleOf l.out = toggleCommand) (hc : 1 ≤ l.cursor.val) :
    (l.lstep p v f).cursor.val = l.cursor.val - 1 := by
  rw [lstep_of_live hn hlive]
  exact phases_cursor_of_command_acked (l := l.ageupd p f) hg ht hc

/-- A live acknowledged step with a data half on the wire and an entry queued presents the command half of that entry. -/
theorem lstep_control_of_data_acked {p : Params} {v : U6} {f : Bit} {l : LinkState} (hn : l.err = .none)
    (hlive : l.liveWith p f) (hg : ackOf v = toggleOf l.out) (ht : toggleOf l.out = toggleData) (hc : 1 ≤ l.cursor.val) :
    (l.lstep p v f).control = (toggleOf v, toggleCommand, l.cursor, .none) := by
  rw [lstep_of_live hn hlive, phases_control_of_command (l := l.ageupd p f) hg ht hc, ageupd_cursor, ageupd_err, hn]

/-! ## The channel -/

/-- A step of A that the channel gives a value samples it, and presents what it leaves. -/
theorem lstepA_of_sample {M : ChannelModel} {i : Link} {k : Nat} {f : Bit} {c : Joined M} {v : U6} {ba : M.Chan}
    (h : M.sample k c.ba = some (v, ba)) :
    c.lstepA i k f = some ⟨⟨c.engines.a.onLink i (LinkState.lstep c.engines.a.cfg v f), c.engines.b⟩,
      M.present ((c.engines.a.onLink i (LinkState.lstep c.engines.a.cfg v f)).link i).out c.ab, ba⟩ := by
  simp [Joined.lstepA, h]

/-- What an operation of A presents is the last value of the sampled register. -/
theorem opA_sampledRegister {i : Link} {op : Instr} {c d : Joined .sampledRegister} (h : c.opA i op = some d) :
    (∀ v f, ¬ op.samples i v f) ∧ exec op c.engines.a = .next d.engines.a ∧ d.engines.b = c.engines.b ∧
    d.ab.values = c.ab.values ++ [(d.engines.a.link i).out] ∧ d.ba = c.ba := by
  obtain ⟨_, hs, a, ha, rfl⟩ := opA_eq_some h
  refine ⟨fun v f hv => ?_, ha, rfl, rfl, rfl⟩
  rw [sampleOn_eq_some.2 hv] at hs
  cases hs

/-- An operation of B is an operation of A with the names exchanged. -/
theorem opB_eq_some {M : ChannelModel} {j : Link} {op : Instr} {c d : Joined M} (h : c.opB j op = some d) :
    c.swap.opA j op = some d.swap := by
  obtain ⟨d', hd, rfl⟩ := Option.map_eq_some_iff.1 h
  exact hd

end Sys2Proof.Machine
end

section
/-! PROOF. The obligations of 20_memory.md. -/

namespace Sys2Proof.Machine

/-! ## Requests and the step -/

/-- Settles O4: the first three cases of `decodesByChecks` are the rejections. -/
theorem decodeAcceptsWellFormed : Obligations.DecodeAcceptsWellFormed := by
  unfold Obligations.DecodeAcceptsWellFormed
  intro r
  rcases decodesByChecks r with ⟨hl, e⟩ | ⟨_, ho, e⟩ | ⟨_, _, hc, e⟩ | ⟨hw, hd⟩
  · simp [e, wellFormed_iff, hl]
  · simp [e, wellFormed_iff, ho]
  · simp [e, wellFormed_iff, hc]
  · simp [hd, hw]

/-- Settles O6: `step_of_ok` and `step_of_nil`. -/
theorem stepRunsDecodedOrHolds : Obligations.StepRunsDecodedOrHolds :=
  ⟨fun _ _ _ _ h hd => step_of_ok h hd, fun _ h => step_of_nil h⟩

/-- Settles O8: `exec_completes`, with the frame `exec_frame`. -/
theorem everyOperationCompletes : Obligations.EveryOperationCompletes := by
  unfold Obligations.EveryOperationCompletes
  intro ins s
  obtain ⟨t, ht, _⟩ := exec_completes ins s
  exact ⟨t, ht, exec_frame ht⟩

/-- Settles O7: the four clauses are the four cases of `decodesByChecks`, and an operation completes. -/
theorem stopsOnlyOnNoOperation : Obligations.StopsOnlyOnNoOperation := by
  unfold Obligations.StopsOnlyOnNoOperation
  intro s r rest h
  rw [wellFormed_iff]
  rcases decodesByChecks r with ⟨hl, e⟩ | ⟨hl, ho, e⟩ | ⟨hl, ho, hc, e⟩ | ⟨hw, ins, e⟩
  · simp [hl, step_of_error h e, stopFor]
  · simp [hl, ho, step_of_error h e, stopFor]
  · simp [hl, ho, hc, step_of_error h e, stopFor]
  · obtain ⟨hl, ho, hc⟩ := wellFormed_iff.1 hw
    obtain ⟨t, ht, _⟩ := exec_completes ins { s with pending := rest }
    simp [hl, ho, hc, step_of_ok h e, ht]

/-- Settles O9, by induction on the operations: a step decodes the oldest request to its operation, which leaves the others waiting. -/
theorem runPerformsIssuedSequence : Obligations.RunPerformsIssuedSequence := by
  unfold Obligations.RunPerformsIssuedSequence
  intro ops rest s
  induction ops generalizing s with
  | nil => rfl
  | cons x xs ih =>
    obtain ⟨t, _, hrs⟩ := exec_completes x s
    have hstep : step { s with pending := (x :: xs).map encode ++ rest } = .next { t with pending := xs.map encode ++ rest } := by
      rw [step_of_ok rfl (decode_encode x)]; exact hrs _
    rw [execAll_cons (hrs rest), ← ih t, List.length_cons, runSteps, hstep]

/-! ## Links do not interact -/

/-- Settles O47: each operation is a function of its own link (`exists_actsOn`), which the other leaves as it was. -/
theorem differentLinksCommute : Obligations.DifferentLinksCommute := by
  unfold Obligations.DifferentLinksCommute
  intro x y i j hx hy hij s
  obtain ⟨f, hf⟩ := exists_actsOn hx
  obtain ⟨g, hg⟩ := exists_actsOn hy
  refine ⟨_, _, _, _, hf s, hg s, hg _, hf _, links_ext fun k => ?_, ?_, ?_⟩
  · by_cases hi : k = i
    · subst hi; simp [hij]
    · by_cases hj : k = j
      · subst hj; simp [hi]
      · simp [hi, hj]
  · simp [hij.symm]
  · simp [hij]

/-- Settles O39: in any order each link takes its own step alone, so both sides have the same links; and every step returns nothing. -/
theorem cycleOrderImmaterial : Obligations.CycleOrderImmaterial := by
  unfold Obligations.CycleOrderImmaterial
  intro s vs fs order hperm
  obtain ⟨t, ht, hcfg, hpend, hlinks⟩ :=
    execAll_flatMap (fun i => runsOn_lstep i vs[i.val] fs[i.val]) (hperm.nodup_iff.2 nodup_allLinks) s
  rw [← List.map_eq_flatMap] at ht
  have hne : order ≠ [] := fun h => by rw [h] at hperm; exact absurd hperm.length_eq (by decide)
  have hres : t.result = .nothing := by
    refine execAll_result_nothing (fun x hx u w hw => ?_) (.inr (by simpa using hne)) ht
    obtain ⟨i, _, rfl⟩ := List.mem_map.1 hx
    cases hw; rfl
  have hlinkst : ((s.forEachLink fun i => LinkState.lstep s.cfg vs[i.val] fs[i.val]).answer .nothing).links = t.links :=
    links_ext fun i => by rw [hlinks i, if_pos (hperm.mem_iff.2 (mem_allLinks i)), answer_link, link_forEachLink]
  exact ⟨t, congrArg _ (State.ext hlinkst hcfg.symm hres.symm hpend.symm), ht⟩

/-! ## The signal-level view -/

/-- A clock of a block with nothing waiting performs the clock's operations. -/
theorem runSteps_clock (p : PortsIn) {s : State} (h : s.pending = []) :
    runSteps p.ops.length (s.clock p) = execAll p.ops s := by
  have hs : { s with pending := [] } = s := by rw [← h]
  have hc : s.clock p = { s with pending := p.ops.map encode ++ [] } := by simp [State.clock, State.issue, h]
  rw [hc, runPerformsIssuedSequence, hs]

/-- Settles O57: without `por` the clock's operations are lists on one link each, and `execAll_flatMap` says what each link gets. -/
theorem clockPerformsStrobesInOrder : Obligations.ClockPerformsStrobesInOrder := by
  unfold Obligations.ClockPerformsStrobesInOrder
  intro p s hs
  rw [runSteps_clock p hs]
  cases hpor : p.por with
  | true =>
    have hops : p.ops = [.por] := by simp [PortsIn.ops, hpor]
    rw [hops, execAll_singleton]
    refine ⟨_, rfl, hs, rfl, fun _ => links_ext fun i => ?_, nofun⟩
    rw [answer_link, link_forEachLink, por_eq_afterPor, afterPor_link]
  | false =>
    obtain ⟨t, ht, hcfg, hpend, hlinks⟩ :=
      execAll_flatMap (fun i => linkIn_ops_runsOn p.links[i.val] p.tick i) nodup_allLinks s
    refine ⟨t, by simpa [PortsIn.ops, hpor] using ht, hpend.trans hs, hcfg, nofun, fun _ i =>
      ⟨p.links[i.val].afterRst (s.link i), p.links[i.val].afterEnq (p.links[i.val].afterRst (s.link i)), rfl, ?_, ?_⟩⟩
    · rw [enqOk_eq hpor]
      cases hv : p.links[i.val].enqValid <;> simp [LinkIn.afterEnq, hv]
    · rw [hlinks i, if_pos (mem_allLinks i)]
      rfl

/-! ## Acknowledged steps -/

/-- Settles O36: a command half on the wire is followed by its data half, which dequeues; after a data half comes the command half
first, and the second step is of the first kind. -/
theorem twoAcknowledgedStepsDequeue : Obligations.TwoAcknowledgedStepsDequeue := by
  unfold Obligations.TwoAcknowledgedStepsDequeue
  intro s i v w f g hn hc hlive hg
  refine ⟨_, rfl, fun ht => ?_, fun ht hlive' hg' => ⟨_, rfl, ?_⟩⟩
  · rw [answer_link, link_onLink_self, lstep_cursor_of_command_acked hn hlive hg ht hc]
  · simp only [answer_link, link_onLink_self] at hlive' hg' ⊢
    obtain ⟨_, ht', hcur, hn'⟩ : _ ∧ _ ∧ _ ∧ _ := by
      simpa [LinkState.control] using lstep_control_of_data_acked hn hlive hg ht hc
    rw [lstep_cursor_of_command_acked hn' hlive' hg' ht' (by rwa [hcur]), hcur]

/-! ## The channel -/

/-- Settles O60: the value with the highest number is the one presented last, so the step that reads it is the step of the reciprocating
channel; and an operation of either end appends what it presents. -/
theorem reciprocatingIsSampled : Obligations.ReciprocatingIsSampled := by
  unfold Obligations.ReciprocatingIsSampled
  refine ⟨fun i j f c hlast hseen => ?_, fun i op c d h => opA_sampledRegister h,
    fun j op c d h => opA_sampledRegister (opB_eq_some h)⟩
  have hread : ChannelModel.sampledRegister.sample (c.ba.values.length - 1) c.ba =
      some ((c.engines.b.link j).out, { c.ba with seen := c.ba.values.length - 1 }) :=
    sampledRegister_sample.2 ⟨by omega, by rw [← hlast, List.getLast?_eq_getElem?], rfl⟩
  exact ⟨_, lstepA_of_sample hread, rfl, List.getLast?_concat, Nat.le_sub_one_of_lt hseen, rfl⟩

end Sys2Proof.Machine
end

section
/-! PROOF. The encodings of 30_encoding.md: what a byte on a wire and a word of a table decode to, and what the operations that stand
for a code do. -/

namespace Sys2Proof

open Machine

/-! ## Bytes on a wire -/

/-- A container read as a channel value and put back loses bits 7:6 (R52). -/
theorem byteOfU6_trunc6 (b : Byte) : byteOfU6 (trunc6 b) = b &&& 0x3F#8 := by
  apply BitVec.eq_of_toNat_eq
  rw [byteOfU6, trunc6, BitVec.toNat_setWidth_of_le (by decide), BitVec.toNat_setWidth, BitVec.toNat_and]
  exact (Nat.and_two_pow_sub_one_eq_mod b.toNat 6).symm

/-- Reading a container as a channel value keeps bit 4, the toggle (R70). -/
theorem toggleOf_trunc6 (b : Byte) : toggleOf (trunc6 b) = b.getLsbD 4 := by
  simp [toggleOf, trunc6]

/-- The toggle alone tells which half a channel value is (R72, R73). -/
theorem halfOfValue_cases (i : Link) (v : U6) :
    (toggleOf v = toggleCommand ∧ halfOfValue i v = .halfCmd i (ackOf v) (payloadOf v)) ∨
    (toggleOf v = toggleData ∧ halfOfValue i v = .halfData i (ackOf v) (payloadOf v)) := by
  cases h : toggleOf v
  · exact .inr ⟨rfl, by simp [halfOfValue, halfKind, h]⟩
  · exact .inl ⟨rfl, by simp [halfOfValue, halfKind, h]⟩

/-- The half a channel value is has that value as its encoding. -/
theorem encode_halfOfValue (i : Link) (v : U6) : encode (halfOfValue i v) = encodeWire i v := by
  rcases halfOfValue_cases i v with ⟨ht, e⟩ | ⟨ht, e⟩ <;> rw [e, encode, ← ht, channelEncode_fields]

/-- A byte on a wire decodes to the half that its bits 5:0 are. -/
theorem decode_wire_byte (i : Link) (b : Byte) : decode ⟨.wire, i.val, [b]⟩ = .ok (halfOfValue i (trunc6 b)) := by
  rw [decode_wire, linkOfNat_val, operands1]

/-! ## Words of the opcode table -/

theorem decodeTableWord_of_ok {n w : Nat} {r : Request} {ins : Instr} (h : requestOfWord n w = some r) (hd : decode r = .ok ins) :
    decodeTableWord n w = some ins := by
  simp [decodeTableWord, h, hd]

/-- A word whose request is an instruction's encoding decodes to that instruction. -/
theorem decodeTableWord_of_encode {n w : Nat} {ins : Instr} (h : requestOfWord n w = some (encode ins)) :
    decodeTableWord n w = some ins :=
  decodeTableWord_of_ok h (decode_encode ins)

end Sys2Proof

namespace Sys2Proof.Machine

/-! ## Queue entries -/

/-- An `ENQ` on a link without error and with a free slot puts its entry after the valid ones (R25, R101). -/
theorem enq_of_room {l : LinkState} (hn : l.err = .none) (hc : l.cursor.val < queueCap) (e : Entry) :
    (l.enq e).2 = true ∧ (l.enq e).1.entries = l.entries ++ [e] ∧ (l.enq e).1.out = l.out := by
  rcases enq_cases e l with ⟨he, _⟩ | ⟨_, hf, _⟩ | ⟨_, _, h⟩
  · exact absurd hn he
  · omega
  · refine ⟨by rw [h], ?_, by rw [h]⟩
    have hget : (l.q.toList.set l.cursor.val e)[l.cursor.val]? = some e := List.getElem?_set_self (by simpa using hc)
    simp [h, LinkState.entries, LinkState.inError, hn, Vector.toList_set, List.take_add_one, List.take_set_of_le, hget]

/-! ## Command types -/

/-- A data half under the type it is dispatched on is the receive phase of that half (R123). -/
theorem dataUnder_lastCmd_eq_rxphase (d : U4) (l : LinkState) :
    l.dataUnder l.lastCmd d = (l.rxphase l.out (channelEncode false toggleData d)).1 := if_pos rfl

/-- A new data half under `CMD_UPDATE_STATE` writes `rx_state` (R23, R123). -/
theorem dataUnder_updateState {l : LinkState} (ho : ackOf l.out = true) (hc : l.lastCmd = cmdUpdateState) (d : U4) :
    l.dataUnder cmdUpdateState d = { l with rxState := d } := by
  rw [← hc, dataUnder_lastCmd_eq_rxphase]
  rcases rxphase_cases l.out (channelEncode false toggleData d) l with ⟨h, _⟩ | ⟨h, _⟩ | ⟨_, _, e⟩
  · simp [ho] at h
  · simp at h
  · simp [e, LinkState.dispatch, hc]

/-- Under any other type a data half has no effect, and neither has one that is not new or comes under another type (R74, R75(b)). -/
theorem dataUnder_eq_self {c : U4} {l : LinkState}
    (h : c ≠ cmdUpdateState ∨ ackOf l.out = false ∨ l.lastCmd ≠ cmdUpdateState) (d : U4) : l.dataUnder c d = l := by
  rcases dataUnder_cases c d l with e | ⟨hl, hc, ho, _⟩
  · exact e
  · simp [hl, hc, ho] at h

/-- An operation that leaves its link as it was leaves the block as it was. -/
theorem onLink_eq_self {i : Link} {f : LinkState → LinkState} {s : State} (h : f (s.link i) = s.link i) : s.onLink i f = s := by
  rw [State.onLink, h, setLink_link]

/-- The row of every command type is the arrival of a data half under that type (R74, log 5). -/
theorem exec_commandTypeOf (i : Link) (c d : U4) (s : State) :
    exec (commandTypeOf i c d) s = .next ((s.onLink i (LinkState.dataUnder c d)).answer .nothing) := by
  obtain ⟨c⟩ := c
  fin_cases c <;> rfl

/-- The row of a command type whose data half has no effect changes nothing but the result. -/
theorem exec_commandTypeOf_eq_self {i : Link} {c d : U4} {s : State} (h : (s.link i).dataUnder c d = s.link i) :
    exec (commandTypeOf i c d) s = .next { s with result := .nothing } := by
  rw [exec_commandTypeOf, onLink_eq_self h, State.answer]

/-! ## Error codes -/

/-- The codes of R77 tell the error states apart. -/
theorem code_inj {e f : Err} : e.code = f.code ↔ e = f :=
  ⟨fun h => Option.some.inj (by rw [← ofCode_code e, h, ofCode_code]), congrArg _⟩

/-- `err_o` carries the code of an error state exactly when the link is in that state (R77). -/
theorem errOutIs_code (i : Link) (e : Err) (s : State) : s.errOutIs i e.code = decide ((s.link i).err = e) := by
  rw [State.errOutIs, beq_eq_decide, decide_eq_decide]
  exact code_inj

end Sys2Proof.Machine
end

section
/-! PROOF. The obligations of 30_encoding.md. -/

namespace Sys2Proof.Machine

/-- Settles O5: bits 5:0 of the byte are a channel value, which is a half by its toggle, bit 4. -/
theorem everyWireByteIsAHalf : Obligations.EveryWireByteIsAHalf := by
  unfold Obligations.EveryWireByteIsAHalf
  intro i b
  refine ⟨_, decode_wire_byte i b, by rw [encode_halfOfValue, encodeWire, byteOfU6_trunc6], ?_⟩
  rw [← toggleOf_trunc6]
  rcases halfOfValue_cases i (trunc6 b) with ⟨ht, e⟩ | ⟨ht, e⟩
  · exact .inl ⟨ht, _, _, e⟩
  · exact .inr ⟨ht, _, _, e⟩

/-- Settles O2: each word's request is the encoding of its instruction. Two are not: the byte with bits 7:6 set (R52), and the code 3,
which is no instruction's (R77). -/
theorem tableWordsDecode : Obligations.TableWordsDecode :=
  ⟨decodeTableWord_of_encode rfl, decodeTableWord_of_encode rfl, decodeTableWord_of_encode rfl,
    decodeTableWord_of_ok rfl (decode_wire_byte 0 0b11100101#8), decodeTableWord_of_encode rfl,
    decodeTableWord_of_encode rfl, decodeTableWord_of_encode rfl,
    decodeTableWord_of_encode rfl, decodeTableWord_of_encode rfl, decodeTableWord_of_encode rfl, decodeTableWord_of_encode rfl,
    decodeTableWord_of_encode rfl, decodeTableWord_of_encode rfl, decodeTableWord_of_encode rfl, rfl⟩

/-- Settles O13: `SEND` is performed as that `ENQ`, and `enq_of_room` says what it does to a queue with room. -/
theorem sendEnqueuesUpdateState : Obligations.SendEnqueuesUpdateState := by
  unfold Obligations.SendEnqueuesUpdateState
  intro s i d
  refine ⟨⟨_, rfl, rfl⟩, fun hn hc => ?_⟩
  obtain ⟨hok, hentries, hout⟩ := enq_of_room hn hc ⟨cmdUpdateState, d⟩
  exact ⟨_, rfl, by simp [hok], ⟨fun j hj => by simp [hj], rfl, rfl⟩, by simpa using hentries, by simpa using hout⟩

/-- Settles O22: by `exec_commandTypeOf` every row is the arrival of a data half under its type, which `dataUnder_updateState` and
`dataUnder_eq_self` describe. -/
theorem commandTypesDispatch : Obligations.CommandTypesDispatch := by
  unfold Obligations.CommandTypesDispatch
  intro s i d
  refine ⟨fun ho hc => ?_, fun h => ?_, fun ins hins => ?_, ?_⟩
  · refine ⟨_, exec_commandTypeOf i cmdUpdateState d s, ⟨fun j hj => by simp [hj], rfl, rfl⟩, rfl, ?_⟩
    rw [answer_link, link_onLink_self, dataUnder_updateState ho hc]
  · exact exec_commandTypeOf_eq_self (c := cmdUpdateState) (dataUnder_eq_self (.inr h) d)
  · obtain ⟨c, hc, rfl⟩ : ∃ c ∈ ([0, 2, 3, 4, 5, 6, 7, 8, 9, 10, 11, 12, 13, 14, 15] : List U4), commandTypeOf i c d = ins :=
      List.mem_map.1 hins
    have hne : c ≠ cmdUpdateState := by rintro rfl; revert hc; decide
    exact exec_commandTypeOf_eq_self (dataUnder_eq_self (.inl hne) d)
  · refine ⟨_, _, exec_commandTypeOf .., rfl, ?_⟩
    rw [answer_links, answer_links, State.onLink, dataUnder_lastCmd_eq_rxphase]

/-- Settles O42: each row observes the code of its error state (`errOutIs_code`), and `err_o` drives that code. -/
theorem errorCodesObserved : Obligations.ErrorCodesObserved := by
  unfold Obligations.ErrorCodesObserved
  intro s i
  rw [← errOutIs_code i .none, ← errOutIs_code i .overrun, ← errOutIs_code i .outOfSync]
  refine ⟨rfl, rfl, rfl, ?_⟩
  rw [State.outputs]
  cases (s.link i).err <;> rfl

end Sys2Proof.Machine
end

section
/-! PROOF. Each operation on the queue in each of its cases, and what the block is after it. -/

namespace Sys2Proof.Machine

/-! ## The entries as a list -/

/-- The shifted queue holds the slots above the head, then the last slot again (R104, D11). -/
theorem shiftQueue_toList (q : Vector Entry queueCap) : (shiftQueue q).toList = q.toList.tail ++ [q[3]] := by
  rw [shiftQueue_eq, queue_toList q]
  rfl

/-- The valid entries of a link without error (R25). -/
theorem entries_of_err_none {l : LinkState} (hn : l.err = .none) : l.entries = l.q.toList.take l.cursor.val := by
  rw [LinkState.entries, inError_eq_false.2 hn]
  rfl

/-! ## `ENQ` and `DEQ`, one equation per case -/

/-- R106: a link in error refuses the entry. -/
theorem enq_of_err_ne_none {l : LinkState} (he : l.err ≠ .none) (e : Entry) : l.enq e = (l, false) := by
  rcases enq_cases e l with ⟨_, h⟩ | ⟨hn, _⟩ | ⟨hn, _⟩
  · exact h
  · exact absurd hn he
  · exact absurd hn he

/-- R102: a full queue overruns. -/
theorem enq_of_full {l : LinkState} (hn : l.err = .none) (hc : l.cursor.val = queueCap) (e : Entry) :
    l.enq e = (l.raise .overrun, false) := by
  rcases enq_cases e l with ⟨he, _⟩ | ⟨_, _, h⟩ | ⟨_, hlt, _⟩
  · exact absurd hn he
  · exact h
  · omega

/-- R101: what each register holds after `ENQ` on a link without error and with a free slot. -/
theorem enq_registers_of_room {l : LinkState} (hn : l.err = .none) (hc : l.cursor.val < queueCap) (e : Entry) :
    (l.enq e).1.cursor.val = l.cursor.val + 1 ∧
    (∀ k : Slot, (l.enq e).1.q[k.val] = if k.val = l.cursor.val then e else l.q[k.val]) ∧
    (l.enq e).1.out = l.out ∧ (l.enq e).1.lastCmd = l.lastCmd ∧ (l.enq e).1.rxState = l.rxState ∧
    (l.enq e).1.err = .none ∧ (l.enq e).1.age = l.age := by
  rcases enq_cases e l with ⟨he, _⟩ | ⟨_, hf, _⟩ | ⟨_, _, h⟩
  · exact absurd hn he
  · omega
  · rw [h]
    exact ⟨rfl, fun k => by simp only [Vector.getElem_set, eq_comm], rfl, rfl, rfl, hn, rfl⟩

/-- `ENQ` succeeds only on a link without error and with a free slot (R101, R102, R106). -/
theorem room_of_enq_ok {e : Entry} {l : LinkState} (hok : (l.enq e).2 = true) : l.err = .none ∧ l.cursor.val < queueCap := by
  rcases enq_cases e l with ⟨_, h⟩ | ⟨_, _, h⟩ | ⟨hn, hc, _⟩
  · simp [h] at hok
  · simp [h] at hok
  · exact ⟨hn, hc⟩

/-- R105: an empty queue is out of sync. -/
theorem deq_of_empty {l : LinkState} (hc : l.cursor.val = 0) : l.deq = l.raise .outOfSync := by
  rcases deq_cases l with ⟨_, h⟩ | ⟨hpos, _⟩
  · exact h
  · omega

/-- R104: the queue and the cursor after `DEQ` with an entry in the queue. -/
theorem deq_queue_of_pos {l : LinkState} (hc : 1 ≤ l.cursor.val) :
    l.deq.q = shiftQueue l.q ∧ l.deq.cursor.val = l.cursor.val - 1 := by
  rcases deq_cases l with ⟨hz, _⟩ | ⟨_, h⟩
  · omega
  · rw [h]; exact ⟨rfl, rfl⟩

/-- `DEQ` takes the first of the valid entries away (R25, R104): what the shift leaves in the last slot lies beyond the cursor. -/
theorem entries_eq_head_cons_deq {l : LinkState} (hn : l.err = .none) (hc : 1 ≤ l.cursor.val) :
    l.entries = l.q[0] :: l.deq.entries := by
  obtain ⟨hq, hcur⟩ := deq_queue_of_pos hc
  have hle : l.cursor.val - 1 ≤ l.q.toList.tail.length := by
    have := l.cursor.isLt
    rw [List.length_tail, Vector.length_toList]
    omega
  have hhead : l.q.toList = l.q[0] :: l.q.toList.tail := by rw [queue_toList]; rfl
  calc l.entries
      = (l.q[0] :: l.q.toList.tail).take (l.cursor.val - 1 + 1) := by
        rw [entries_of_err_none hn, ← hhead, Nat.sub_add_cancel hc]
    _ = l.q[0] :: l.q.toList.tail.take (l.cursor.val - 1) := List.take_succ_cons
    _ = l.q[0] :: l.deq.entries := by
        rw [entries_of_err_none (deq_err_of_pos hc ▸ hn), hq, hcur, shiftQueue_toList, List.take_append_of_le_length hle]

/-! ## The block after an operation on one link -/

/-- Writing one link and the result touches no other link, no constant and no waiting request. -/
theorem onlyLink_answer_setLink (s : State) (i : Link) (l : LinkState) (r : Result) :
    s.onlyLink i ((s.setLink i l).answer r) :=
  ⟨fun _ hj => by rw [answer_link, link_setLink_ne hj], rfl, rfl⟩

/-- `ENQ` gives its link the operation on that link, touches nothing else, and answers with `ok` (R100). -/
theorem exec_enq (s : State) (i : Link) (c d : U4) :
    ∃ t, exec (.enq i c d) s = .next t ∧ s.onlyLink i t ∧
      t.result = .truth ((s.link i).enq ⟨c, d⟩).2 ∧ t.link i = ((s.link i).enq ⟨c, d⟩).1 :=
  ⟨_, rfl, onlyLink_answer_setLink .., rfl, by simp⟩

/-- `DEQ` gives its link the operation on that link, touches nothing else, and returns nothing (R104, R105). -/
theorem exec_deq (s : State) (i : Link) :
    ∃ t, exec (.deq i) s = .next t ∧ s.onlyLink i t ∧ t.result = .nothing ∧ t.link i = (s.link i).deq :=
  ⟨_, rfl, onlyLink_answer_setLink .., rfl, by simp⟩

end Sys2Proof.Machine
end

section
/-! PROOF. The obligations of 41_queue.md. -/

namespace Sys2Proof.Machine

/-- Settles O17: a successful `ENQ` found room (`room_of_enq_ok`), and a `DEQ` leaves the valid entries after the first. -/
theorem queueIsFirstInFirstOut : Obligations.QueueIsFirstInFirstOut := by
  unfold Obligations.QueueIsFirstInFirstOut
  constructor
  · intro s t i c d hexec hresult
    obtain ⟨u, hu, _, hur, hlink⟩ := exec_enq s i c d
    obtain rfl : u = t := Host.Outcome.next.inj (hu.symm.trans hexec)
    have hok : ((s.link i).enq ⟨c, d⟩).2 = true := Result.truth.inj (hur.symm.trans hresult)
    obtain ⟨hn, hc⟩ := room_of_enq_ok hok
    rw [hlink]
    exact (enq_of_room hn hc ⟨c, d⟩).2.1
  · intro s t i hn hc hexec
    obtain ⟨u, hu, _, _, hlink⟩ := exec_deq s i
    obtain rfl : u = t := Host.Outcome.next.inj (hu.symm.trans hexec)
    rw [hlink]
    exact entries_eq_head_cons_deq hn hc

/-- Settles O10: `exec_enq`, with the registers of the link by `enq_registers_of_room`. -/
theorem enqueueAppends : Obligations.EnqueueAppends := by
  unfold Obligations.EnqueueAppends
  intro s i c d hn hc
  obtain ⟨t, ht, hframe, hresult, hlink⟩ := exec_enq s i c d
  obtain ⟨hok, _⟩ := enq_of_room hn hc ⟨c, d⟩
  refine ⟨t, ht, hframe, by rw [hresult, hok], ?_⟩
  rw [hlink]
  exact enq_registers_of_room hn hc ⟨c, d⟩

/-- Settles O11: a full queue overruns (`enq_of_full`), and on a link in error the link written is the link as it was. -/
theorem enqueueRefused : Obligations.EnqueueRefused := by
  unfold Obligations.EnqueueRefused
  constructor
  · intro s i c d hn hc
    obtain ⟨t, ht, hframe, hresult, hlink⟩ := exec_enq s i c d
    rw [enq_of_full hn hc] at hresult hlink
    exact ⟨t, ht, hframe, hresult, hlink⟩
  · intro s i c d he
    calc exec (.enq i c d) s
        = .next ((s.setLink i ((s.link i).enq ⟨c, d⟩).1).answer (.truth ((s.link i).enq ⟨c, d⟩).2)) := rfl
      _ = .next { s with result := .truth false } := by rw [enq_of_err_ne_none he, setLink_link, State.answer]

/-- Settles O12: as O10, with the valid entries by `enq_of_room`. -/
theorem enqNormalCase : Obligations.EnqNormalCase := by
  unfold Obligations.EnqNormalCase
  intro s i c d hn hc
  obtain ⟨t, ht, ⟨hothers, _, _⟩, _, hlink⟩ := exec_enq s i c d
  obtain ⟨hok, hentries, _⟩ := enq_of_room hn hc ⟨c, d⟩
  obtain ⟨hcursor, hslots, hregisters⟩ := enq_registers_of_room hn hc ⟨c, d⟩
  refine ⟨hok, t, ht, hothers, ?_⟩
  rw [hlink]
  exact ⟨hcursor, hslots, hentries, hregisters⟩

/-- Settles O14: the row of `QHEAD` only answers. -/
theorem qheadReadsSlotZero : Obligations.QheadReadsSlotZero := by
  unfold Obligations.QheadReadsSlotZero
  intro s i
  rfl

/-- Settles O15: the slots of the shifted queue are those of `shiftQueue_eq`; the other registers `DEQ` never writes, or raises no
error here. -/
theorem dequeueShifts : Obligations.DequeueShifts := by
  unfold Obligations.DequeueShifts
  intro s i hc
  obtain ⟨t, ht, hframe, hresult, hlink⟩ := exec_deq s i
  obtain ⟨hq, hcursor⟩ := deq_queue_of_pos hc
  refine ⟨t, ht, hframe, hresult, ?_⟩
  rw [hlink, hq, shiftQueue_eq]
  exact ⟨hcursor, rfl, rfl, rfl, rfl, deq_out _, deq_lastCmd _, deq_rxState _, deq_err_of_pos hc, deq_age _⟩

/-- Settles O16: `exec_deq` on an empty queue. -/
theorem dequeueEmptyRaisesOutOfSync : Obligations.DequeueEmptyRaisesOutOfSync := by
  unfold Obligations.DequeueEmptyRaisesOutOfSync
  intro s i hc
  obtain ⟨t, ht, hframe, hresult, hlink⟩ := exec_deq s i
  exact ⟨t, ht, hframe, hresult, hlink.trans (deq_of_empty hc)⟩

end Sys2Proof.Machine
end

section
/-! PROOF. The phases of a link and its whole step, one equation per case, and the block after one of them. -/

namespace Sys2Proof.Machine

/-! ## `RXPHASE`, one equation per case -/

section
variable {o v : U6}

/-- R121: no new half, no effect. -/
theorem rxphase_of_old (h : toggleOf v = ackOf o) (l : LinkState) : l.rxphase o v = (l, o) := by
  rcases rxphase_cases o v l with ⟨_, e⟩ | ⟨hv, ho, _⟩ | ⟨hv, ho, _⟩
  · exact e
  · rw [hv, ho] at h; cases h
  · rw [hv, ho] at h; cases h

/-- R122: a new command half is stored and acknowledged. -/
theorem rxphase_of_command (hne : toggleOf v ≠ ackOf o) (ht : toggleOf v = toggleCommand) (l : LinkState) :
    l.rxphase o v = ({ l with lastCmd := payloadOf v }, withAck o true) := by
  rcases rxphase_cases o v l with ⟨h, _⟩ | ⟨_, _, e⟩ | ⟨hv, _⟩
  · exact absurd h hne
  · exact e
  · rw [ht] at hv; cases hv

/-- The dispatch as one write of `rx_state`, or none (R123). -/
theorem dispatch_eq (c d : U4) (l : LinkState) :
    l.dispatch c d = { l with rxState := if c = cmdUpdateState then d else l.rxState } := by
  unfold LinkState.dispatch; split <;> rfl

/-- R123: a new data half is dispatched on `last_cmd` and acknowledged. -/
theorem rxphase_of_data (hne : toggleOf v ≠ ackOf o) (ht : toggleOf v = toggleData) (l : LinkState) :
    l.rxphase o v =
      ({ l with rxState := if l.lastCmd = cmdUpdateState then payloadOf v else l.rxState }, withAck o false) := by
  rcases rxphase_cases o v l with ⟨h, _⟩ | ⟨hv, _⟩ | ⟨_, _, e⟩
  · exact absurd h hne
  · rw [ht] at hv; cases hv
  · rw [e, dispatch_eq]

/-- The receive side of R135 for `last_cmd`. -/
theorem rxphase_lastCmd (o v : U6) (l : LinkState) :
    (l.rxphase o v).1.lastCmd = if toggleOf v ≠ ackOf o ∧ toggleOf v = true then payloadOf v else l.lastCmd := by
  rcases rxphase_cases o v l with ⟨h, e⟩ | ⟨hv, ho, e⟩ | ⟨hv, _, e⟩
  · simp [e, h]
  · simp [e, hv, ho]
  · simp [e, hv]

/-- The receive side of R135 for `rx_state`. -/
theorem rxphase_rxState (o v : U6) (l : LinkState) :
    (l.rxphase o v).1.rxState =
      if toggleOf v ≠ ackOf o ∧ toggleOf v = false ∧ l.lastCmd = cmdUpdateState then payloadOf v else l.rxState := by
  rcases rxphase_cases o v l with ⟨h, e⟩ | ⟨hv, _, e⟩ | ⟨hv, ho, e⟩
  · simp [e, h]
  · simp [e, hv]
  · simp [e, hv, ho]

/-- The receive phase writes its working copy, never the register (R130). -/
@[simp] theorem rxphase_out (o v : U6) (l : LinkState) : (l.rxphase o v).1.out = l.out := by
  obtain ⟨hout, _⟩ := rxphase_frame o v l
  exact hout

/-! ## `TXPHASE`, one equation per case -/

/-- R125: blocked or idle, no effect. -/
theorem txphase_of_held {l : LinkState} (h : ackOf v ≠ toggleOf o ∨ (toggleOf o = toggleData ∧ l.cursor.val = 0)) :
    l.txphase o v = (l, o, false) := by
  rcases txphase_cases o v l with ⟨_, e⟩ | ⟨_, _, _, e⟩ | ⟨hg, _, hc, _⟩ | ⟨hg, ht, _⟩ | ⟨hg, ht, _⟩
  · exact e
  · exact e
  · rcases h with hb | ⟨_, hz⟩
    · exact absurd hg hb
    · omega
  · simp [hg, ht] at h
  · simp [hg, ht] at h

/-- R126: the command half of the head. -/
theorem txphase_of_command {l : LinkState} (hg : ackOf v = toggleOf o) (ht : toggleOf o = toggleData) (hc : l.cursor.val ≠ 0) :
    l.txphase o v = (l, channelEncode (ackOf o) true l.q[0].cmd, false) := by
  rcases txphase_cases o v l with ⟨hb, _⟩ | ⟨_, _, hz, _⟩ | ⟨_, _, _, e⟩ | ⟨_, hk, _⟩ | ⟨_, hk, _⟩
  · exact absurd hg hb
  · exact absurd hz hc
  · exact e
  · rw [ht] at hk; cases hk
  · rw [ht] at hk; cases hk

/-- R128: the data half of the head, which is dequeued. -/
theorem txphase_of_data {l : LinkState} (hg : ackOf v = toggleOf o) (ht : toggleOf o = toggleCommand) (hc : 1 ≤ l.cursor.val) :
    l.txphase o v = (l.deq, channelEncode (ackOf o) false l.q[0].data, false) := by
  rcases txphase_cases o v l with ⟨hb, _⟩ | ⟨_, hk, _⟩ | ⟨_, hk, _⟩ | ⟨_, _, _, e⟩ | ⟨_, _, hz, _⟩
  · exact absurd hg hb
  · rw [ht] at hk; cases hk
  · rw [ht] at hk; cases hk
  · exact e
  · omega

/-- R127: a data half is due and nothing is queued. -/
theorem txphase_of_outOfSync {l : LinkState} (hg : ackOf v = toggleOf o) (ht : toggleOf o = toggleCommand)
    (hc : l.cursor.val = 0) :
    l.txphase o v = (l.raise .outOfSync, channelEncode (ackOf o) false l.q[0].data, true) := by
  rcases txphase_cases o v l with ⟨hb, _⟩ | ⟨_, hk, _⟩ | ⟨_, hk, _⟩ | ⟨_, _, hp, _⟩ | ⟨_, _, _, e⟩
  · exact absurd hg hb
  · rw [ht] at hk; cases hk
  · rw [ht] at hk; cases hk
  · omega
  · exact e

/-- The send phase writes its working copy, never the register (R130). -/
@[simp] theorem txphase_out (o v : U6) (l : LinkState) : (l.txphase o v).1.out = l.out := by
  rcases txphase_cases o v l with ⟨_, e⟩ | ⟨_, _, _, e⟩ | ⟨_, _, _, e⟩ | ⟨_, _, _, e⟩ | ⟨_, _, _, e⟩ <;> rw [e] <;> simp

end

/-- `ENQ` presents nothing: a queued entry goes out in a step. -/
@[simp] theorem enq_out (e : Entry) (l : LinkState) : (l.enq e).1.out = l.out := by
  rcases enq_cases e l with ⟨_, h⟩ | ⟨_, _, h⟩ | ⟨_, _, h⟩ <;> rw [h]
  rfl

/-! ## The phases together -/

section
variable {p : Params} {v : U6} {l : LinkState}

/-- The send phase writes no `last_cmd`. -/
@[simp] theorem phases_lastCmd (p : Params) (v : U6) (l : LinkState) :
    (l.phases p v).lastCmd = (l.rxphase l.out v).1.lastCmd := by
  rcases phases_cases p v l with ⟨_, e⟩ | ⟨_, _, _, e⟩ | ⟨_, _, _, e⟩ | ⟨_, _, _, e⟩ <;> rw [e] <;> simp

/-- The phases write no age. -/
@[simp] theorem phases_age (p : Params) (v : U6) (l : LinkState) : (l.phases p v).age = l.age := by
  obtain ⟨_, _, _, _, hage⟩ := rxphase_frame l.out v l
  rcases phases_cases p v l with ⟨_, e⟩ | ⟨_, _, _, e⟩ | ⟨_, _, _, e⟩ | ⟨_, _, _, e⟩ <;> simp [e, hage]

/-- Phases that raise no error acknowledge what was sampled (R124). -/
theorem phases_ack (h : (l.phases p v).err = .none) : ackOf (l.phases p v).out = toggleOf v := by
  rcases phases_cases p v l with ⟨_, e⟩ | ⟨_, _, _, e⟩ | ⟨_, _, _, e⟩ | ⟨_, _, _, e⟩
  · simp [e]
  · simp [e]
  · simp [e]
  · rw [e] at h; cases h

/-- A link that meets (I-c) of R34 raises no error in its phases. -/
theorem phases_err (hn : l.err = .none) (hic : toggleOf l.out = true → 1 ≤ l.cursor.val) : (l.phases p v).err = .none := by
  obtain ⟨_, _, hcur, herr, _⟩ := rxphase_frame l.out v l
  rcases phases_cases p v l with ⟨_, e⟩ | ⟨_, _, _, e⟩ | ⟨_, _, hc, e⟩ | ⟨_, ht, hc, _⟩
  · simp [e, herr, hn]
  · simp [e, herr, hn]
  · rw [e, deq_err_of_pos (by rwa [hcur]), herr, hn]
  · have := hic ht
    omega

/-! ## The step, one equation per case -/

theorem ageupd_eq (p : Params) (f : Bit) (l : LinkState) : l.ageupd p f = { l with age := l.ageAfter p f } := by
  rw [← ageupd_age_eq_ageAfter]; rfl

/-- R131: a stale link is reset. -/
theorem lstep_of_stale {f : Bit} (h : ¬ l.liveWith p f) (v : U6) :
    l.lstep p v f = { l with out := 0x00#6, cursor := 0, err := .none, age := l.ageAfter p f } := by
  rcases lstep_cases p v f l with ⟨_, e⟩ | ⟨hs, _⟩ | ⟨hs, _⟩
  · rw [e, ageupd_eq]; rfl
  · exact absurd (stale_ageupd_eq_false.1 hs) h
  · exact absurd (stale_ageupd_eq_false.1 hs) h

/-- R129: on a live link in error the age alone changes. -/
theorem lstep_of_err_ne_none {f : Bit} (he : l.err ≠ .none) (hlive : l.liveWith p f) (v : U6) :
    l.lstep p v f = { l with age := l.ageAfter p f } := by
  have hs := stale_ageupd_eq_false.2 hlive
  rcases lstep_cases p v f l with ⟨hst, _⟩ | ⟨_, _, e⟩ | ⟨_, hn, _⟩
  · rw [hs] at hst; cases hst
  · rw [e, ageupd_eq]
  · exact absurd hn he

/-- A live step that leaves its link without error acknowledges what it sampled (R124). -/
theorem lstep_ack {f : Bit} (hlive : l.liveWith p f) (h : (l.lstep p v f).err = .none) :
    ackOf (l.lstep p v f).out = toggleOf v := by
  by_cases hn : l.err = .none
  · rw [lstep_of_live hn hlive] at h ⊢
    exact phases_ack h
  · rw [lstep_of_err_ne_none hn hlive] at h
    exact absurd h hn

/-- A fresh value finds every link live, the limit being at least 1 (R7). -/
theorem liveWith_fresh (hp : p.wf) (l : LinkState) : l.liveWith p true := by
  obtain ⟨_, hlimit, _⟩ := hp
  exact hlimit

/-- A fresh step of a link without error that meets (I-c) of R34 ends without error, acknowledges what it sampled (R124), and
clears the age. -/
theorem lstep_fresh_acks (hp : p.wf) (hn : l.err = .none) (hic : toggleOf l.out = true → 1 ≤ l.cursor.val) :
    (l.lstep p v true).err = .none ∧ ackOf (l.lstep p v true).out = toggleOf v ∧ (l.lstep p v true).age = 0 := by
  rw [lstep_of_live hn (liveWith_fresh hp l)]
  have herr : ((l.ageupd p true).phases p v).err = .none := phases_err hn hic
  exact ⟨herr, phases_ack herr, by simp⟩

/-! ## The step of a live link without error -/

variable {f : Bit}

/-- The receive side of R135, and the age. -/
theorem lstep_receive_side (hn : l.err = .none) (hlive : l.liveWith p f) :
    (l.lstep p v f).age = l.ageAfter p f ∧
    (l.lstep p v f).lastCmd = (if toggleOf v ≠ ackOf l.out ∧ toggleOf v = true then payloadOf v else l.lastCmd) ∧
    (l.lstep p v f).rxState =
      (if toggleOf v ≠ ackOf l.out ∧ toggleOf v = false ∧ l.lastCmd = cmdUpdateState then payloadOf v else l.rxState) := by
  rw [lstep_of_live hn hlive]
  refine ⟨?_, ?_, ?_⟩
  · rw [phases_age, ageupd_age_eq_ageAfter]
  · rw [phases_lastCmd, rxphase_lastCmd]; rfl
  · rw [phases_rxState, rxphase_rxState]; rfl

/-- The send side of R135. -/
theorem lstep_send_side (hn : l.err = .none) (hlive : l.liveWith p f) :
    if ackOf v ≠ toggleOf l.out ∨ (toggleOf l.out = false ∧ l.cursor.val = 0) then
      (l.lstep p v f).out = channelEncode (toggleOf v) (toggleOf l.out) (payloadOf l.out) ∧
      (l.lstep p v f).q = l.q ∧ (l.lstep p v f).cursor = l.cursor ∧ (l.lstep p v f).err = .none
    else if toggleOf l.out = false then
      (l.lstep p v f).out = channelEncode (toggleOf v) true l.q[0].cmd ∧
      (l.lstep p v f).q = l.q ∧ (l.lstep p v f).cursor = l.cursor ∧ (l.lstep p v f).err = .none
    else if 1 ≤ l.cursor.val then
      (l.lstep p v f).out = channelEncode (toggleOf v) false l.q[0].data ∧
      (l.lstep p v f).q = shiftQueue l.q ∧ (l.lstep p v f).cursor.val = l.cursor.val - 1 ∧ (l.lstep p v f).err = .none
    else
      (l.lstep p v f).out = (if p.oosCommit = true then channelEncode (toggleOf v) false l.q[0].data else l.out) ∧
      (l.lstep p v f).q = l.q ∧ (l.lstep p v f).cursor = l.cursor ∧ (l.lstep p v f).err = .outOfSync := by
  obtain ⟨_, hq, hcur, herr, _⟩ := rxphase_frame l.out v (l.ageupd p f)
  have hrows := phases_cases p v (l.ageupd p f)
  simp only [ageupd_out, ageupd_q, ageupd_cursor, ageupd_err, hn] at hq hcur herr hrows
  rw [lstep_of_live hn hlive]
  rcases hrows with ⟨hheld, e⟩ | ⟨hg, ht, hc, e⟩ | ⟨hg, ht, hc, e⟩ | ⟨hg, ht, hc, e⟩ <;> rw [e]
  · rw [if_pos hheld]
    exact ⟨rfl, hq, hcur, herr⟩
  · rw [if_neg (by simp [hg, Nat.ne_of_gt hc]), if_pos ht]
    exact ⟨rfl, hq, hcur, herr⟩
  · rw [← hcur] at hc
    obtain ⟨hq', hcur'⟩ := deq_queue_of_pos hc
    rw [if_neg (by simp [hg, ht]), if_neg (by simp [ht]), if_pos (by rwa [← hcur])]
    exact ⟨rfl, by rw [hq', hq], by rw [hcur', hcur], by rw [deq_err_of_pos hc, herr]⟩
  · rw [if_neg (by simp [hg, ht]), if_neg (by simp [ht]), if_neg (by omega)]
    exact ⟨rfl, hq, hcur, rfl⟩

/-- R125: while blocked or idle a step holds what is on the wire, but for the ack. -/
theorem lstep_holds (hn : l.err = .none) (hlive : l.liveWith p f)
    (h : ackOf v ≠ toggleOf l.out ∨ (toggleOf l.out = false ∧ l.cursor.val = 0)) :
    (l.lstep p v f).out = withAck l.out (toggleOf v) ∧
    (l.lstep p v f).q = l.q ∧ (l.lstep p v f).cursor = l.cursor ∧ (l.lstep p v f).err = .none := by
  have hsend := lstep_send_side (v := v) hn hlive
  rwa [if_pos h] at hsend

/-- R126: after an acknowledged data half the command half of the head goes out. -/
theorem lstep_sends_command (hn : l.err = .none) (hlive : l.liveWith p f) (hg : ackOf v = toggleOf l.out)
    (ht : toggleOf l.out = toggleData) (hc : 1 ≤ l.cursor.val) :
    (l.lstep p v f).out = channelEncode (toggleOf v) true l.q[0].cmd ∧
    (l.lstep p v f).q = l.q ∧ (l.lstep p v f).cursor = l.cursor ∧ (l.lstep p v f).err = .none := by
  have hsend := lstep_send_side (v := v) hn hlive
  rwa [if_neg (by simp [hg, Nat.ne_of_gt hc]), if_pos ht] at hsend

/-- R128: after an acknowledged command half the data half of the head goes out, and the head is dequeued. -/
theorem lstep_sends_data (hn : l.err = .none) (hlive : l.liveWith p f) (hg : ackOf v = toggleOf l.out)
    (ht : toggleOf l.out = toggleCommand) (hc : 1 ≤ l.cursor.val) :
    (l.lstep p v f).out = channelEncode (toggleOf v) false l.q[0].data ∧
    (l.lstep p v f).q = shiftQueue l.q ∧ (l.lstep p v f).cursor.val = l.cursor.val - 1 ∧ (l.lstep p v f).err = .none := by
  have hsend := lstep_send_side (v := v) hn hlive
  rwa [if_neg (by simp [hg, ht]), if_neg (by simp [ht]), if_pos hc] at hsend

/-- In a step `out.toggle` goes from 0 to 1 in the one row of R135 that sends a command half (R126). -/
theorem lstep_toggle_rises (h0 : toggleOf l.out = toggleData) (h1 : toggleOf (l.lstep p v f).out = toggleCommand) :
    (ackOf v = toggleData ∧ l.liveWith p f) ∧ l.err = .none ∧ l.cursor.val ≠ 0 ∧
      payloadOf (l.lstep p v f).out = l.q[0].cmd ∧ (l.lstep p v f).q = l.q ∧ (l.lstep p v f).cursor = l.cursor := by
  by_cases hlive : l.liveWith p f
  · by_cases hn : l.err = .none
    · by_cases hheld : ackOf v ≠ toggleOf l.out ∨ (toggleOf l.out = false ∧ l.cursor.val = 0)
      · obtain ⟨hout, _⟩ := lstep_holds hn hlive hheld
        simp [hout, h0] at h1
      · obtain ⟨hg, hc⟩ : ackOf v = toggleOf l.out ∧ l.cursor.val ≠ 0 := by simpa [h0] using hheld
        obtain ⟨hout, hq, hcur, _⟩ := lstep_sends_command hn hlive hg h0 (Nat.one_le_iff_ne_zero.2 hc)
        exact ⟨⟨hg.trans h0, hlive⟩, hn, hc, by simp [hout], hq, hcur⟩
    · simp [lstep_of_err_ne_none hn hlive, h0] at h1
  · simp [lstep_of_stale hlive] at h1

end

/-! ## The block after an operation -/

/-- What an operation makes of the value that a link presents: it leaves it, or resets it, or is a step of the link (R130). -/
theorem exec_out {ins : Instr} {s t : State} (h : exec ins s = .next t) (i : Link) :
    (t.link i).out = (s.link i).out ∨ (t.link i).out = 0x00#6 ∨
    ∃ v f, t.link i = (s.link i).lstep s.cfg v f ∧ ins.samples i v f := by
  rcases exec_link h i with e | ⟨c, d, e, _⟩ | ⟨x, e, _⟩ | ⟨e, _⟩ | ⟨o, v, e, _⟩ | ⟨o, v, e, _⟩ | ⟨v, f, e, hs⟩ | ⟨f, e, _⟩ |
    ⟨e, _⟩ | ⟨e, _⟩
  · exact .inl (by rw [e])
  · exact .inl (by rw [e, dataUnder_out])
  · exact .inl (by rw [e, enq_out])
  · exact .inl (by rw [e, deq_out])
  · exact .inl (by rw [e, rxphase_out])
  · exact .inl (by rw [e, txphase_out])
  · exact .inr (.inr ⟨v, f, e, hs⟩)
  · exact .inl (by rw [e, ageupd_out])
  · exact .inr (.inl (by rw [e, lrst_out]))
  · exact .inr (.inl (by rw [e]; rfl))

/-- `RXPHASE` gives its link the operation on that link, touches nothing else, and answers with the working copy (R121). -/
theorem exec_rxphase (s : State) (i : Link) (o v : U6) :
    ∃ t, exec (.rxphase i o v) s = .next t ∧ s.onlyLink i t ∧
      t.result = .value6 ((s.link i).rxphase o v).2 ∧ t.link i = ((s.link i).rxphase o v).1 :=
  ⟨_, rfl, onlyLink_answer_setLink .., rfl, by simp⟩

/-- `TXPHASE` gives its link the operation on that link, touches nothing else, and answers with the working copy and `oos` (R125). -/
theorem exec_txphase (s : State) (i : Link) (o v : U6) :
    ∃ t, exec (.txphase i o v) s = .next t ∧ s.onlyLink i t ∧
      t.result = .sent ((s.link i).txphase o v).2.1 ((s.link i).txphase o v).2.2 ∧ t.link i = ((s.link i).txphase o v).1 :=
  ⟨_, rfl, onlyLink_answer_setLink .., rfl, by simp⟩

/-- A send phase that leaves its link as it was changes nothing but the result. -/
theorem exec_txphase_eq_self {s : State} {i : Link} {o v o' : U6} {oos : Bool}
    (h : (s.link i).txphase o v = (s.link i, o', oos)) : exec (.txphase i o v) s = .next { s with result := .sent o' oos } := by
  calc exec (.txphase i o v) s
      = .next ((s.setLink i ((s.link i).txphase o v).1).answer
          (.sent ((s.link i).txphase o v).2.1 ((s.link i).txphase o v).2.2)) := rfl
    _ = .next { s with result := .sent o' oos } := by rw [h, setLink_link, State.answer]

/-- A send phase that dequeues leaves the links as `DEQ` does (R128). -/
theorem exec_txphase_eq_deq {s : State} {i : Link} {o v o' : U6} {oos : Bool}
    (h : (s.link i).txphase o v = ((s.link i).deq, o', oos)) :
    ∃ t u, exec (.txphase i o v) s = .next t ∧ exec (.deq i) s = .next u ∧ t.links = u.links ∧ s.onlyLink i t ∧
      t.link i = (s.link i).deq ∧ t.result = .sent o' oos := by
  obtain ⟨t, ht, hframe, hresult, hlink⟩ := exec_txphase s i o v
  obtain ⟨u, hu, ⟨hothers, _, _⟩, _, hulink⟩ := exec_deq s i
  rw [h] at hresult hlink
  refine ⟨t, u, ht, hu, links_ext fun j => ?_, hframe, hlink, hresult⟩
  by_cases hj : j = i
  · subst hj; rw [hlink, hulink]
  · rw [hframe.1 j hj, hothers j hj]

/-- `LSTEP` gives its link the step of that link, touches nothing else, and returns nothing (R130). -/
theorem exec_lstep (s : State) (i : Link) (v : U6) (f : Bit) :
    ∃ t, exec (.lstep i v f) s = .next t ∧ s.onlyLink i t ∧ t.result = .nothing ∧ t.link i = (s.link i).lstep s.cfg v f :=
  ⟨_, rfl, onlyLink_answer_setLink .., rfl, by simp⟩

/-- The arrival of a command half is the fresh step that samples it (log 4). -/
theorem exec_halfCmd_eq_lstep (s : State) (i : Link) (a : Bit) (c : U4) :
    exec (.halfCmd i a c) s = exec (.lstep i (channelEncode a true c) true) s := rfl

/-- The arrival of a data half is the fresh step that samples it (log 4). -/
theorem exec_halfData_eq_lstep (s : State) (i : Link) (a : Bit) (d : U4) :
    exec (.halfData i a d) s = exec (.lstep i (channelEncode a false d) true) s := rfl

end Sys2Proof.Machine
end

section
/-! PROOF. Two engines over the reciprocating channel (R64): one round of fresh steps, and a queue drained round by round. -/

namespace Sys2Proof.Machine

section
variable {i j : Link} {e : Engines}

/-! ## One round, link by link -/

/-- A steps first, on what B presents (R225). -/
theorem round_a_link (i j : Link) (e : Engines) :
    (e.round i j).a.link i = (e.a.link i).lstep e.a.cfg (e.b.link j).out true :=
  link_onLink_self ..

/-- B steps next, on what A presents then (R225). -/
theorem round_b_link (i j : Link) (e : Engines) :
    (e.round i j).b.link j = (e.b.link j).lstep e.b.cfg ((e.round i j).a.link i).out true :=
  link_onLink_self ..

theorem observed_eq (i j : Link) (e : Engines) :
    e.observed i j = (e.b.link j).observes ((e.round i j).a.link i).out := rfl

/-! ## Ends in step -/

/-- The two ends are in step: both without error, B with nothing to send and a data half on the wire, and the toggle `k` of A's half
the one that B has acknowledged. -/
structure Engines.InStep (i j : Link) (k : Bit) (e : Engines) : Prop where
  wfA : e.a.cfg.wf
  wfB : e.b.cfg.wf
  errA : (e.a.link i).err = .none
  errB : (e.b.link j).err = .none
  toggleA : toggleOf (e.a.link i).out = k
  ackB : ackOf (e.b.link j).out = k
  toggleB : toggleOf (e.b.link j).out = toggleData
  emptyB : (e.b.link j).cursor.val = 0

/-- In step, B has nothing to send and holds its half, but for the ack (R125). -/
theorem round_b_holds {k : Bit} (h : e.InStep i j k) :
    ((e.round i j).b.link j).out = withAck (e.b.link j).out (toggleOf ((e.round i j).a.link i).out) ∧
    ((e.round i j).b.link j).cursor.val = 0 ∧ ((e.round i j).b.link j).err = .none := by
  obtain ⟨hout, _, hcur, herr⟩ := lstep_holds (v := ((e.round i j).a.link i).out) h.errB
    (liveWith_fresh h.wfB _) (.inr ⟨h.toggleB, h.emptyB⟩)
  rw [round_b_link]
  exact ⟨hout, by rw [hcur, h.emptyB], herr⟩

/-- A round from ends in step leaves them in step, B having acknowledged whatever A presents, as long as A raises no error. -/
theorem inStep_round {k : Bit} (h : e.InStep i j k) (ha : ((e.round i j).a.link i).err = .none) :
    (e.round i j).InStep i j (toggleOf ((e.round i j).a.link i).out) := by
  obtain ⟨hout, hcur, herr⟩ := round_b_holds h
  exact
    { wfA := h.wfA
      wfB := h.wfB
      errA := ha
      errB := herr
      toggleA := rfl
      ackB := by rw [hout, ackOf_withAck]
      toggleB := by rw [hout, toggleOf_withAck, h.toggleB]
      emptyB := hcur }

/-! ## A's side of a round -/

/-- The valid entries are a matter of the queue, the cursor and the error state alone (R25). -/
theorem entries_congr {l m : LinkState} (hq : l.q = m.q) (hcur : l.cursor = m.cursor) (herr : l.err = m.err) :
    l.entries = m.entries := by
  rw [LinkState.entries, LinkState.entries, LinkState.inError, LinkState.inError, hq, hcur, herr]

/-- A round from an acknowledged data half and an entry queued: A presents the command half of the head (R126). -/
theorem round_a_sends_command (h : e.InStep i j false) (hc : 1 ≤ (e.a.link i).cursor.val) :
    ((e.round i j).a.link i).out = channelEncode false true (e.a.link i).q[0].cmd ∧
    ((e.round i j).a.link i).q = (e.a.link i).q ∧ ((e.round i j).a.link i).cursor = (e.a.link i).cursor ∧
    ((e.round i j).a.link i).err = .none := by
  have hsend := lstep_sends_command h.errA (liveWith_fresh h.wfA _) (h.ackB.trans h.toggleA.symm) h.toggleA hc
  rwa [h.toggleB, ← round_a_link] at hsend

/-- A round from an acknowledged command half and an entry queued: A presents the data half of the head and dequeues it (R128). -/
theorem round_a_sends_data (h : e.InStep i j true) (hc : 1 ≤ (e.a.link i).cursor.val) :
    ((e.round i j).a.link i).out = channelEncode false false (e.a.link i).q[0].data ∧
    ((e.round i j).a.link i).cursor.val = (e.a.link i).cursor.val - 1 ∧ ((e.round i j).a.link i).err = .none ∧
    (e.a.link i).entries = (e.a.link i).q[0] :: ((e.round i j).a.link i).entries := by
  obtain ⟨hout, hq, hcur, herr⟩ :=
    lstep_sends_data h.errA (liveWith_fresh h.wfA _) (h.ackB.trans h.toggleA.symm) h.toggleA hc
  rw [h.toggleB] at hout
  rw [round_a_link]
  obtain ⟨hq', hcur'⟩ := deq_queue_of_pos hc
  refine ⟨hout, hcur, herr, ?_⟩
  rw [entries_eq_head_cons_deq h.errA hc]
  congr 1
  exact entries_congr (hq'.trans hq.symm) (Fin.ext (hcur'.trans hcur.symm))
    ((deq_err_of_pos hc).trans (h.errA.trans herr.symm))

/-- A round from an acknowledged data half and nothing queued: A holds its half, but for the ack (R125). -/
theorem round_a_idle (h : e.InStep i j false) (hc : (e.a.link i).cursor.val = 0) :
    ((e.round i j).a.link i).out = withAck (e.a.link i).out false := by
  obtain ⟨hout, _⟩ := lstep_holds h.errA (liveWith_fresh h.wfA _) (.inr ⟨h.toggleA, hc⟩)
  rw [round_a_link, hout, h.toggleB]

/-! ## B's side of a round -/

/-- B stores the command half that A presents (R122). -/
theorem round_b_stores_command {c : U4} (h : e.InStep i j false)
    (hout : ((e.round i j).a.link i).out = channelEncode false true c) :
    ((e.round i j).b.link j).lastCmd = c := by
  obtain ⟨_, hcmd, _⟩ := lstep_receive_side (v := ((e.round i j).a.link i).out) h.errB (liveWith_fresh h.wfB _)
  rw [round_b_link, hcmd, hout]
  simp [h.ackB]

/-- B dispatches the data half that A presents on the command type it stored (R123). -/
theorem round_b_dispatches_data {d : U4} (h : e.InStep i j true)
    (hout : ((e.round i j).a.link i).out = channelEncode false false d) :
    ((e.round i j).b.link j).rxState =
      if (e.b.link j).lastCmd = cmdUpdateState then d else (e.b.link j).rxState := by
  obtain ⟨_, _, hrx⟩ := lstep_receive_side (v := ((e.round i j).a.link i).out) h.errB (liveWith_fresh h.wfB _)
  rw [round_b_link, hrx, hout]
  simp [h.ackB]

/-- A command half is no (command, data) pair yet (R138(a)). -/
theorem observed_command {c : U4} (hout : ((e.round i j).a.link i).out = channelEncode false true c) :
    e.observed i j = none := by
  simp [observed_eq, hout, LinkState.observes, halfKind]

/-- With a data half B observes the pair of the command type it stored and the half's payload (R138(a)). -/
theorem observed_data {d : U4} (h : e.InStep i j true) (hout : ((e.round i j).a.link i).out = channelEncode false false d) :
    e.observed i j = some ⟨(e.b.link j).lastCmd, d⟩ := by
  simp [observed_eq, hout, LinkState.observes, LinkState.newHalf, halfKind, h.ackB]

/-! ## Ends that start in step -/

@[simp] theorem linkAfterPor_out (p : Params) : (LinkState.afterPor p).out = 0x00#6 := rfl
@[simp] theorem linkAfterPor_cursor (p : Params) : (LinkState.afterPor p).cursor = 0 := rfl
@[simp] theorem linkAfterPor_err (p : Params) : (LinkState.afterPor p).err = .none := rfl

/-- After `POR` and an `ENQ` at A the two ends are in step, with that entry alone queued (R137). -/
theorem inStep_of_enq {p : Params} (hp : p.wf) {c d : U4} (h : exec (.enq i c d) (State.afterPor p) = .next e.a)
    (hb : e.b = State.afterPor p) :
    e.InStep i j false ∧ (e.a.link i).cursor.val = 1 ∧ (e.a.link i).q[0] = ⟨c, d⟩ ∧ (e.b.link j).out = 0x00#6 := by
  obtain ⟨a, ha, ⟨_, hcfg, _⟩, _, hlink⟩ := exec_enq (State.afterPor p) i c d
  obtain rfl : a = e.a := Host.Outcome.next.inj (ha.symm.trans h)
  rw [afterPor_link] at hlink
  obtain ⟨hcur, hslot, hout, _, _, hn, _⟩ := enq_registers_of_room (linkAfterPor_err p) (by simp) ⟨c, d⟩
  rw [← hlink] at hcur hslot hout hn
  refine ⟨?_, hcur, hslot 0, by simp [hb]⟩
  exact
    { wfA := by rw [hcfg]; exact hp
      wfB := by rw [hb]; exact hp
      errA := hn
      errB := by simp [hb]
      toggleA := by simp [hout]
      ackB := by simp [hb]
      toggleB := by simp [hb]
      emptyB := by simp [hb] }

/-! ## One entry, and the whole queue -/

/-- From ends in step with an entry queued, two rounds carry the head across: B observes it and nothing else, A has it no more, and the
ends are in step again. -/
theorem two_rounds_carry_head (h : e.InStep i j false) (hc : 1 ≤ (e.a.link i).cursor.val) :
    ((e.round i j).round i j).InStep i j false ∧
    (((e.round i j).round i j).a.link i).cursor.val = (e.a.link i).cursor.val - 1 ∧
    e.observed i j = none ∧ (e.round i j).observed i j = some (e.a.link i).q[0] ∧
    (e.a.link i).entries = (e.a.link i).q[0] :: (((e.round i j).round i j).a.link i).entries := by
  obtain ⟨hout, hq, hcur, herr⟩ := round_a_sends_command h hc
  have hcmd := round_b_stores_command h hout
  have hmid : (e.round i j).InStep i j true := by simpa [hout] using inStep_round h herr
  obtain ⟨hout', hcur', herr', hentries⟩ := round_a_sends_data hmid (by rwa [hcur])
  have hobs := observed_data hmid hout'
  rw [hcmd, hq] at hobs
  rw [hq, entries_congr hq hcur (herr.trans h.errA.symm)] at hentries
  exact ⟨by simpa [hout'] using inStep_round hmid herr', by rw [hcur', hcur], observed_command hout, hobs, hentries⟩

/-- The first of `n + 1` rounds, then the others. -/
theorem rounds_succ (i j : Link) (n : Nat) (e : Engines) :
    e.rounds i j (n + 1) = ((e.observed i j).toList ++ ((e.round i j).rounds i j n).1, ((e.round i j).rounds i j n).2) := rfl

/-- From ends in step, `2n` rounds drain a queue of `n` entries: B observes them in order, each once, and the ends are in step. -/
theorem rounds_drain_queue {n : Nat} (h : e.InStep i j false) (hn : (e.a.link i).cursor.val = n) :
    (e.rounds i j (2 * n)).1 = (e.a.link i).entries ∧ (e.rounds i j (2 * n)).2.InStep i j false ∧
    ((e.rounds i j (2 * n)).2.a.link i).cursor.val = 0 := by
  induction n generalizing e with
  | zero => exact ⟨by simp [Engines.rounds, entries_of_err_none h.errA, hn], h, hn⟩
  | succ n ih =>
    obtain ⟨h', hcur, hobs, hobs', hentries⟩ := two_rounds_carry_head h (by omega)
    obtain ⟨hseen, hlast⟩ := ih h' (by omega)
    rw [Nat.mul_succ, rounds_succ, rounds_succ, hobs, hobs', hseen, hentries]
    exact ⟨rfl, hlast⟩

end

end Sys2Proof.Machine
end

section
/-! PROOF. The obligations of 42_link_fsm.md. -/

namespace Sys2Proof.Machine

/-! ## The receive phase -/

/-- Settles O18: `rxphase_of_old`, and the link written is the link as it was. -/
theorem rxphaseIgnoresOldHalf : Obligations.RxphaseIgnoresOldHalf := by
  unfold Obligations.RxphaseIgnoresOldHalf
  intro s i o v h
  calc exec (.rxphase i o v) s
      = .next ((s.setLink i ((s.link i).rxphase o v).1).answer (.value6 ((s.link i).rxphase o v).2)) := rfl
    _ = .next { s with result := .value6 o } := by rw [rxphase_of_old h, setLink_link, State.answer]

/-- Settles O19: the working copy by `rxphase_copy`, and the link by the equation of each case. -/
theorem rxphaseFollowsPseudocode : Obligations.RxphaseFollowsPseudocode := by
  unfold Obligations.RxphaseFollowsPseudocode
  intro s i o v
  obtain ⟨t, ht, ⟨hothers, _, _⟩, _, hlink⟩ := exec_rxphase s i o v
  refine ⟨t, ht, hothers, rxphase_copy .., fun hold => ?_, fun hne hcmd => ?_, fun hne hdata hup => ?_, fun hne hdata hup => ?_⟩
  · rw [hlink, rxphase_of_old hold]; exact ⟨rfl, rfl⟩
  · rw [hlink, rxphase_of_command hne hcmd]
  · rw [hlink, rxphase_of_data hne hdata, if_pos hup]
  · rw [hlink, rxphase_of_data hne hdata, if_neg hup]

/-- Settles O20: `rxphase_of_command`. -/
theorem rxphaseStoresCommand : Obligations.RxphaseStoresCommand := by
  unfold Obligations.RxphaseStoresCommand
  intro s i o v hne ht
  obtain ⟨t, hexec, hframe, hresult, hlink⟩ := exec_rxphase s i o v
  rw [rxphase_of_command hne ht] at hresult hlink
  exact ⟨t, hexec, hframe, hlink, hresult⟩

/-- Settles O21: `rxphase_of_data`. -/
theorem rxphaseDispatchesData : Obligations.RxphaseDispatchesData := by
  unfold Obligations.RxphaseDispatchesData
  intro s i o v hne ht
  obtain ⟨t, hexec, hframe, hresult, hlink⟩ := exec_rxphase s i o v
  rw [rxphase_of_data hne ht] at hresult hlink
  exact ⟨t, hexec, hframe, hlink, hresult⟩

/-! ## The send phase -/

/-- Settles O24: `txphase_of_held`. -/
theorem txphaseBlockedOrIdle : Obligations.TxphaseBlockedOrIdle := by
  unfold Obligations.TxphaseBlockedOrIdle
  intro s i o v h
  exact exec_txphase_eq_self (txphase_of_held h)

/-- Settles O25: the first clause is `txphase_of_command`. By `exec_out` a step of the link alone can raise the toggle, and it does so
as `lstep_toggle_rises` says. -/
theorem txphaseSendsCommandHalf : Obligations.TxphaseSendsCommandHalf := by
  unfold Obligations.TxphaseSendsCommandHalf
  refine ⟨fun s i o v hg ht hc => exec_txphase_eq_self (txphase_of_command hg ht hc), fun s t i ins h h0 h1 => ?_⟩
  rcases exec_out h i with e | e | ⟨v, f, e, hs⟩
  · rw [e, h0] at h1; cases h1
  · rw [e, toggleOf_reset] at h1; cases h1
  · rw [e] at h1 ⊢
    obtain ⟨hgate, hrest⟩ := lstep_toggle_rises h0 h1
    exact ⟨⟨v, f, hs, hgate⟩, hrest⟩

/-- Settles O26: `txphase_of_data` dequeues as `DEQ` does, whose cursor and error are those of a queue with an entry. -/
theorem txphaseSendsDataHalf : Obligations.TxphaseSendsDataHalf := by
  unfold Obligations.TxphaseSendsDataHalf
  intro s i o v hg ht hc
  obtain ⟨t, u, hexec, hdeq, hlinks, hframe, hlink, hresult⟩ := exec_txphase_eq_deq (txphase_of_data hg ht hc)
  exact ⟨t, u, hexec, hdeq, hlinks, hframe, by rw [hlink, deq_cursor_of_pos hc], by rw [hlink, deq_err_of_pos hc], hresult⟩

/-- Settles O27: as O26, with the working copy and `oos` read from `txphase_of_data`. -/
theorem txphaseDataHalfCase : Obligations.TxphaseDataHalfCase := by
  unfold Obligations.TxphaseDataHalfCase
  intro s i o v hg ht hc
  have htx := txphase_of_data hg ht hc
  obtain ⟨t, u, hexec, hdeq, hlinks, _, hlink, _⟩ := exec_txphase_eq_deq htx
  exact ⟨by rw [htx], t, u, hexec, hdeq, hlinks, by rw [hlink, deq_err_of_pos hc]⟩

/-- Settles O28: `txphase_of_outOfSync`. -/
theorem txphaseOutOfSync : Obligations.TxphaseOutOfSync := by
  unfold Obligations.TxphaseOutOfSync
  intro s i o v hg ht hc
  obtain ⟨t, hexec, hframe, hresult, hlink⟩ := exec_txphase s i o v
  rw [txphase_of_outOfSync hg ht hc] at hresult hlink
  exact ⟨t, hexec, hframe, hlink, hresult⟩

/-! ## The whole step -/

/-- Settles O29: `lstep_of_stale`. -/
theorem staleStepResets : Obligations.StaleStepResets := by
  unfold Obligations.StaleStepResets
  intro s i v f h
  obtain ⟨t, hexec, hframe, hresult, hlink⟩ := exec_lstep s i v f
  exact ⟨t, hexec, hframe, hresult, hlink.trans (lstep_of_stale h v)⟩

/-- Settles O30: live by `lstep_of_err_ne_none`, stale by `lstep_of_stale`. -/
theorem errorGateHolds : Obligations.ErrorGateHolds := by
  unfold Obligations.ErrorGateHolds
  intro s i v f he
  obtain ⟨t, hexec, hframe, _, hlink⟩ := exec_lstep s i v f
  refine ⟨t, hexec, hframe, fun hlive => hlink.trans (lstep_of_err_ne_none he hlive v), fun h => ?_⟩
  rw [hlink, lstep_of_stale h]
  exact ⟨rfl, rfl, rfl⟩

/-- Settles O31: `lstep_receive_side` and `lstep_send_side`, the shifted queue slot by slot (`shiftQueue_eq`). -/
theorem liveStepFollowsTable : Obligations.LiveStepFollowsTable := by
  unfold Obligations.LiveStepFollowsTable
  intro s i v f hlive hn
  obtain ⟨t, hexec, hframe, hresult, hlink⟩ := exec_lstep s i v f
  obtain ⟨hage, hcmd, hrx⟩ := lstep_receive_side (v := v) hn hlive
  have hsend := lstep_send_side (v := v) hn hlive
  rw [shiftQueue_eq, ← hlink] at hsend
  rw [← hlink] at hage hcmd hrx
  exact ⟨t, hexec, hframe, hresult, hage, hcmd, hrx, hsend⟩

/-- Settles O32: the step that samples the half, by `lstep_fresh_acks`, with what `RXPHASE` stores. -/
theorem halfCmdStoredAndAcknowledged : Obligations.HalfCmdStoredAndAcknowledged := by
  unfold Obligations.HalfCmdStoredAndAcknowledged
  intro s i a c
  rw [exec_halfCmd_eq_lstep]
  obtain ⟨t, hexec, hframe, _, hlink⟩ := exec_lstep s i (channelEncode a true c) true
  refine ⟨⟨t, hexec, hexec⟩, fun hp hn hic => ⟨t, hexec, hframe, ?_⟩⟩
  obtain ⟨herr, hack, hage⟩ := lstep_fresh_acks (v := channelEncode a true c) hp hn hic
  obtain ⟨_, hcmd, hrx⟩ := lstep_receive_side (v := channelEncode a true c) hn (liveWith_fresh hp _)
  rw [hlink]
  exact ⟨by simpa using hcmd, by simpa using hrx, by simpa using hack, herr, hage⟩

/-- Settles O33: as O32, with what `RXPHASE` dispatches. -/
theorem halfDataDispatchedAndAcknowledged : Obligations.HalfDataDispatchedAndAcknowledged := by
  unfold Obligations.HalfDataDispatchedAndAcknowledged
  intro s i a d
  rw [exec_halfData_eq_lstep]
  obtain ⟨t, hexec, hframe, _, hlink⟩ := exec_lstep s i (channelEncode a false d) true
  refine ⟨⟨t, hexec, hexec⟩, fun hp hn hic => ⟨t, hexec, hframe, ?_⟩⟩
  obtain ⟨herr, hack, hage⟩ := lstep_fresh_acks (v := channelEncode a false d) hp hn hic
  obtain ⟨_, hcmd, hrx⟩ := lstep_receive_side (v := channelEncode a false d) hn (liveWith_fresh hp _)
  rw [hlink]
  exact ⟨by simpa using hrx, by simpa using hcmd, by simpa using hack, herr, hage⟩

/-- Settles O34: without error the phases hold what is on the wire (`lstep_holds`); in error the age alone changes. -/
theorem senderHoldsUntilAcknowledged : Obligations.SenderHoldsUntilAcknowledged := by
  unfold Obligations.SenderHoldsUntilAcknowledged
  intro s i v f hlive hg
  obtain ⟨t, hexec, _, _, hlink⟩ := exec_lstep s i v f
  refine ⟨t, hexec, ?_⟩
  rw [hlink]
  by_cases hn : (s.link i).err = .none
  · obtain ⟨hout, hq, hcur, herr⟩ := lstep_holds hn hlive (.inl hg)
    rw [hout, hn]
    exact ⟨toggleOf_withAck .., payloadOf_withAck .., hq, hcur, herr⟩
  · rw [lstep_of_err_ne_none hn hlive]
    exact ⟨rfl, rfl, rfl, rfl, rfl⟩

/-- Settles O35: the first step acknowledges the half, so to the second step it is no new half. -/
theorem sampledTwiceActsOnce : Obligations.SampledTwiceActsOnce := by
  unfold Obligations.SampledTwiceActsOnce
  intro s t i v f g hlive hlive' hexec hn'
  obtain ⟨t', ht', _, _, hlink⟩ := exec_lstep s i v f
  obtain rfl : t' = t := Host.Outcome.next.inj (ht'.symm.trans hexec)
  have hold : ackOf (t'.link i).out = toggleOf v := by
    rw [hlink] at hn' ⊢
    exact lstep_ack hlive hn'
  obtain ⟨u, hu, _, _, hulink⟩ := exec_lstep t' i v g
  obtain ⟨_, hcmd, hrx⟩ := lstep_receive_side (v := v) hn' hlive'
  rw [← hulink, hold] at hcmd hrx
  refine ⟨u, hu, by simpa using hcmd, by simpa using hrx, fun hnu => ?_⟩
  rw [hulink] at hnu ⊢
  rw [lstep_ack hlive' hnu, hold]

/-- Settles O38: `forEachLink` steps every link from the link's own state. -/
theorem cycleStepsEveryLink : Obligations.CycleStepsEveryLink := by
  unfold Obligations.CycleStepsEveryLink
  intro s vs fs
  refine ⟨_, rfl, rfl, rfl, rfl, fun i => ?_⟩
  obtain ⟨u, hu, _, _, hlink⟩ := exec_lstep s i vs[i.val] fs[i.val]
  exact ⟨u, hu, by rw [hlink, answer_link, link_forEachLink]⟩

/-! ## Two engines -/

/-- Settles O59: the premises are `InStep`, and `rounds_drain_queue` drains the queue. -/
theorem reciprocatingRoundTrip : Obligations.ReciprocatingRoundTrip := by
  unfold Obligations.ReciprocatingRoundTrip
  intro i j e hwa hwb hna hta hnb htb hab hcb
  obtain ⟨hseen, hlast, hempty⟩ := rounds_drain_queue (e := e) ⟨hwa, hwb, hna, hnb, hta, hab, htb, hcb⟩ rfl
  exact ⟨hseen, hempty, hlast.errA, hlast.errB⟩

/-- Settles O58: from ends in step, A's first round presents the command half, its second the data half, and its third holds that. -/
theorem exampleExchange : Obligations.ExampleExchange := by
  unfold Obligations.ExampleExchange
  intro p hp a ha e he
  obtain ⟨h0, hcur, hq, hb⟩ := inStep_of_enq (e := e) (j := 0) hp (by rw [ha, he]) (by rw [he])
  obtain ⟨ha1, hq1, hcur1, hn1⟩ := round_a_sends_command h0 (by omega)
  rw [hq] at ha1
  rw [← hq1] at hq
  rw [← hcur1] at hcur
  obtain ⟨hb1, _⟩ := round_b_holds h0
  have hcmd := round_b_stores_command h0 ha1
  have h1 : (e.round 0 0).InStep 0 0 true := by simpa [ha1] using inStep_round h0 hn1
  obtain ⟨ha2, hcur2, hn2, _⟩ := round_a_sends_data h1 (by omega)
  rw [hq] at ha2
  obtain ⟨hb2, _⟩ := round_b_holds h1
  have hrx := round_b_dispatches_data h1 ha2
  rw [hcmd, if_pos rfl] at hrx
  have h2 : ((e.round 0 0).round 0 0).InStep 0 0 false := by simpa [ha2] using inStep_round h1 hn2
  have ha3 := round_a_idle h2 (by omega)
  rw [ha3, hrx, hb2, hcur2, hcur, ha2, hcmd, hb1, ha1, hb]
  decide

end Sys2Proof.Machine
end

section
/-! PROOF. The supervisor's operations, one equation per case, and the block after one of them. -/

namespace Sys2Proof.Machine

/-! ## The age and the resets of a link -/

/-- R150: a fresh value clears the age. -/
theorem ageupd_fresh (p : Params) (l : LinkState) : l.ageupd p true = { l with age := 0 } := rfl

/-- R150, R151: without a fresh value the age counts up and stops at `AGE_MAX`. -/
theorem ageupd_not_fresh (p : Params) (l : LinkState) : l.ageupd p false = { l with age := min (l.age + 1) p.ageMax } := rfl

/-- R154: the three registers `LRST` writes. -/
theorem lrst_eq (l : LinkState) : l.lrst = { l with out := 0x00#6, cursor := 0, err := .none } := rfl

theorem lrst_lrst (l : LinkState) : l.lrst.lrst = l.lrst := rfl

/-- R32: every slot of the queue holds zeros after `POR` (D10). -/
theorem linkAfterPor_slot (p : Params) (k : Slot) : (LinkState.afterPor p).q[k.val] = ⟨0#4, 0#4⟩ :=
  Vector.getElem_replicate k.isLt

/-! ## The block after an operation -/

theorem answer_eq_self {s : State} {r : Result} (h : s.result = r) : s.answer r = s := by
  subst h; rfl

/-- `AGEUPD` gives its link the operation on that link, touches nothing else, and returns nothing (R150). -/
theorem exec_ageupd (s : State) (i : Link) (f : Bit) :
    ∃ t, exec (.ageupd i f) s = .next t ∧ s.onlyLink i t ∧ t.result = .nothing ∧ t.link i = (s.link i).ageupd s.cfg f :=
  ⟨_, rfl, onlyLink_answer_setLink .., rfl, by simp⟩

/-- `LRST` gives its link the operation on that link, touches nothing else, and returns nothing (R154). -/
theorem exec_lrst (s : State) (i : Link) :
    ∃ t, exec (.lrst i) s = .next t ∧ s.onlyLink i t ∧ t.result = .nothing ∧ t.link i = (s.link i).lrst :=
  ⟨_, rfl, onlyLink_answer_setLink .., rfl, by simp⟩

/-- `LRST` on a link it leaves as it was, after an operation that returned nothing, changes nothing at all. -/
theorem exec_lrst_eq_self {s : State} {i : Link} (hl : (s.link i).lrst = s.link i) (hr : s.result = .nothing) :
    exec (.lrst i) s = .next s := by
  calc exec (.lrst i) s
      = .next ((s.onLink i LinkState.lrst).answer .nothing) := rfl
    _ = .next s := by rw [onLink_eq_self hl, answer_eq_self hr]

/-- `RDSTALE` is `STALE` on the present age (R161). -/
theorem exec_rdstale_eq_stale (s : State) (i : Link) : exec (.rdstale i) s = exec (.stale i) s := rfl

/-- `LRST` on each link of a list, one operation after the other, once the last result is nothing. -/
theorem execAll_map_lrst (order : List Link) (s : State) :
    execAll (order.map .lrst) (s.answer .nothing) =
      .next ((order.foldl (fun s i => s.onLink i LinkState.lrst) s).answer .nothing) := by
  induction order generalizing s with
  | nil => rfl
  | cons i order ih =>
    have hi : exec (.lrst i) (s.answer .nothing) = .next ((s.onLink i LinkState.lrst).answer .nothing) := rfl
    rw [List.map_cons, execAll_cons hi, ih, List.foldl_cons]

/-- `RESETALL` is performed as its expansion (R80): no `LRST` reads the result of the operation before it. -/
theorem execAll_resetall_expansion (s : State) :
    execAll [.lrst 0, .lrst 1, .lrst 2, .lrst 3, .lrst 4, .lrst 5] s = exec .resetall s := by
  calc execAll [.lrst 0, .lrst 1, .lrst 2, .lrst 3, .lrst 4, .lrst 5] s
      = execAll (allLinks.map .lrst) (s.answer .nothing) := rfl
    _ = exec .resetall s := execAll_map_lrst allLinks s

/-- `RESETALL` resets every link and touches nothing else (R80). -/
theorem exec_resetall (s : State) :
    ∃ t, exec .resetall s = .next t ∧ t.cfg = s.cfg ∧ t.pending = s.pending ∧ ∀ i : Link, t.link i = (s.link i).lrst :=
  ⟨_, rfl, rfl, rfl, fun i => by rw [answer_link, link_forEachLink]⟩

/-- `POR` leaves every link as after reset, touches nothing else, and returns nothing (R156). -/
theorem exec_por (s : State) :
    ∃ t, exec .por s = .next t ∧ t.cfg = s.cfg ∧ t.pending = s.pending ∧ t.result = .nothing ∧
      ∀ i : Link, t.link i = LinkState.afterPor s.cfg :=
  ⟨_, rfl, rfl, rfl, rfl, fun i => by rw [answer_link, link_forEachLink, por_eq_afterPor]⟩

end Sys2Proof.Machine
end

section
/-! PROOF. The obligations of 43_supervisor.md. -/

namespace Sys2Proof.Machine

/-- Settles O40: `exec_ageupd`, with the age by `ageupd_fresh` and `ageupd_not_fresh`. -/
theorem ageupdCountsUpToMax : Obligations.AgeupdCountsUpToMax := by
  unfold Obligations.AgeupdCountsUpToMax
  intro s i
  constructor
  · obtain ⟨t, hexec, hframe, hresult, hlink⟩ := exec_ageupd s i true
    exact ⟨t, hexec, hframe, hresult, hlink.trans (ageupd_fresh ..)⟩
  · obtain ⟨t, hexec, hframe, hresult, hlink⟩ := exec_ageupd s i false
    exact ⟨t, hexec, hframe, hresult, hlink.trans (ageupd_not_fresh ..)⟩

/-- Settles O41: the row of each read only answers, and `RDSTALE` answers as `STALE` does. -/
theorem hostReadsReturnRegisters : Obligations.HostReadsReturnRegisters := by
  unfold Obligations.HostReadsReturnRegisters
  intro s i
  rw [exec_rdstale_eq_stale]
  exact ⟨rfl, rfl, rfl, rfl, rfl⟩

/-- Settles O43: a second `LRST` finds its link as it would leave it (`lrst_lrst`); `RESETALL` by its expansion. -/
theorem lrstAndResetallReset : Obligations.LrstAndResetallReset := by
  unfold Obligations.LrstAndResetallReset
  constructor
  · intro s i
    obtain ⟨t, hexec, hframe, hresult, hlink⟩ := exec_lrst s i
    have hagain : (t.link i).lrst = t.link i := by rw [hlink, lrst_lrst]
    exact ⟨t, hexec, hframe, hresult, hlink.trans (lrst_eq _), exec_lrst_eq_self hagain hresult⟩
  · intro s
    obtain ⟨t, hexec, hcfg, hpending, hlinks⟩ := exec_resetall s
    exact ⟨t, hexec, (execAll_resetall_expansion s).trans hexec, hcfg, hpending, fun i => (hlinks i).trans (lrst_eq _)⟩

/-- Settles O44: `exec_por`, register by register. -/
theorem porSetsEveryRegister : Obligations.PorSetsEveryRegister := by
  unfold Obligations.PorSetsEveryRegister
  intro s
  obtain ⟨t, hexec, hcfg, hpending, hresult, hlinks⟩ := exec_por s
  refine ⟨t, hexec, hcfg, hpending, hresult, fun i => ?_⟩
  rw [hlinks i]
  exact ⟨rfl, rfl, rfl, rfl, rfl, linkAfterPor_slot s.cfg, rfl⟩

end Sys2Proof.Machine
end

section
/-! PROOF. What each operation on a link, and any operation of the block, makes of the error state (R28, R170). -/

namespace Sys2Proof.Machine

/-! ## Operations on one link -/

/-- `ENQ` leaves the error state, or raises `OVERRUN` on a full queue (R102). -/
theorem enq_err_cases (e : Entry) (l : LinkState) :
    (l.enq e).1.err = l.err ∨ (l.err = .none ∧ l.cursor.val = queueCap ∧ (l.enq e).1 = l.raise .overrun) := by
  rcases enq_cases e l with ⟨_, he⟩ | ⟨hn, hc, he⟩ | ⟨_, _, he⟩
  · exact .inl (by rw [he])
  · exact .inr ⟨hn, hc, by rw [he]⟩
  · exact .inl (by rw [he])

/-- `DEQ` leaves the error state, or raises `OUT_OF_SYNC` on an empty queue (R105). -/
theorem deq_err_cases (l : LinkState) : l.deq.err = l.err ∨ (l.cursor.val = 0 ∧ l.deq = l.raise .outOfSync) := by
  rcases deq_cases l with h | ⟨hc, _⟩
  · exact .inr h
  · exact .inl (deq_err_of_pos hc)

/-- `TXPHASE` leaves the error state, or raises `OUT_OF_SYNC` where it owes a data half and the queue is empty (R127). -/
theorem txphase_err_cases (o v : U6) (l : LinkState) :
    (l.txphase o v).1.err = l.err ∨
    (toggleOf o = toggleCommand ∧ ackOf v = true ∧ l.cursor.val = 0 ∧ (l.txphase o v).1 = l.raise .outOfSync) := by
  rcases txphase_cases o v l with ⟨_, e⟩ | ⟨_, _, _, e⟩ | ⟨_, _, _, e⟩ | ⟨_, _, hc, e⟩ | ⟨hg, ht, hc, e⟩
  · exact .inl (by rw [e])
  · exact .inl (by rw [e])
  · exact .inl (by rw [e])
  · exact .inl (by rw [e, deq_err_of_pos hc])
  · exact .inr ⟨ht, hg.trans ht, hc, by rw [e]⟩

/-- The phases leave the error state, or raise `OUT_OF_SYNC` when a command half on the wire is acknowledged and the queue is empty
(R127). -/
theorem phases_err_cases (p : Params) (v : U6) (l : LinkState) :
    (l.phases p v).err = l.err ∨
    (toggleOf l.out = toggleCommand ∧ ackOf v = true ∧ l.cursor.val = 0 ∧ (l.phases p v).err = .outOfSync ∧
      (l.phases p v).cursor = l.cursor ∧ (l.phases p v).q = l.q) := by
  obtain ⟨_, hq, hcur, herr, _⟩ := rxphase_frame l.out v l
  rcases phases_cases p v l with ⟨_, e⟩ | ⟨_, _, _, e⟩ | ⟨_, _, hc, e⟩ | ⟨hg, ht, hc, e⟩
  · exact .inl (by rw [e, herr])
  · exact .inl (by rw [e, herr])
  · exact .inl (by rw [e, deq_err_of_pos (by rwa [hcur]), herr])
  · exact .inr ⟨ht, hg.trans ht, hc, by rw [e, raise_err], by rw [e, raise_cursor, hcur], by rw [e, raise_q, hq]⟩

/-- A step leaves the error state, clears it, or, on a live link without error, raises `OUT_OF_SYNC` as the phases do. -/
theorem lstep_err_cases (p : Params) (v : U6) (f : Bit) (l : LinkState) :
    (l.lstep p v f).err = l.err ∨ (l.lstep p v f).err = .none ∨
    (l.liveWith p f ∧ l.err = .none ∧ toggleOf l.out = toggleCommand ∧ ackOf v = true ∧ l.cursor.val = 0 ∧
      (l.lstep p v f).err = .outOfSync ∧ (l.lstep p v f).cursor = l.cursor ∧ (l.lstep p v f).q = l.q) := by
  rcases lstep_cases p v f l with ⟨_, e⟩ | ⟨_, _, e⟩ | ⟨hs, hn, e⟩
  · exact .inr (.inl (by rw [e, lrst_err]))
  · exact .inl (by rw [e, ageupd_err])
  · rw [e]
    rcases phases_err_cases p v (l.ageupd p f) with h | ⟨ht, ha, hc, h⟩
    · exact .inl h
    · exact .inr (.inr ⟨stale_ageupd_eq_false.1 hs, hn, ht, ha, hc, h⟩)

/-! ## Any operation of the block -/

/-- The operation dequeues on link `i` (R170): a `DEQ`; a `TXPHASE` with the gate open and toggle 1; or a processing cycle that finds
the link live and without error, with a command half on the wire that the sampled value acknowledges. -/
def Dequeues (s : State) (i : Link) (ins : Instr) : Prop :=
  ins = .deq i ∨ (∃ o v, ins = .txphase i o v ∧ toggleOf o = toggleCommand ∧ ackOf v = true) ∨
  ∃ v f, ins.samples i v f ∧
    (s.link i).liveWith s.cfg f ∧ (s.link i).err = .none ∧ toggleOf (s.link i).out = toggleCommand ∧ ackOf v = true

/-- What an operation makes of a link's error state: it leaves it, clears it, raises `OVERRUN` by an `ENQ` on a full queue, or raises
`OUT_OF_SYNC` by a dequeue on an empty one (R28, R170). -/
theorem exec_err_cases {ins : Instr} {s t : State} (h : exec ins s = .next t) (i : Link) :
    (t.link i).err = (s.link i).err ∨ (t.link i).err = .none ∨
    ((s.link i).err = .none ∧ (s.link i).cursor.val = queueCap ∧ t.link i = (s.link i).raise .overrun ∧
      ((∃ c d, ins = .enq i c d) ∨ ∃ d, ins = .send i d)) ∨
    ((s.link i).cursor.val = 0 ∧ (t.link i).err = .outOfSync ∧ (t.link i).cursor = (s.link i).cursor ∧
      (t.link i).q = (s.link i).q ∧ Dequeues s i ins) := by
  rcases exec_link h i with e | ⟨c, d, e, _⟩ | ⟨x, e, hins⟩ | ⟨e, hins⟩ | ⟨o, v, e, _⟩ | ⟨o, v, e, hins⟩ | ⟨v, f, e, hs⟩ |
    ⟨f, e, _⟩ | ⟨e, _⟩ | ⟨e, _⟩ <;> rw [e]
  · exact .inl rfl
  · exact .inl (dataUnder_err ..)
  · rcases enq_err_cases x (s.link i) with hk | ⟨hn, hc, hr⟩
    · exact .inl hk
    · exact .inr (.inr (.inl ⟨hn, hc, hr, hins⟩))
  · rcases deq_err_cases (s.link i) with hk | ⟨hc, hr⟩
    · exact .inl hk
    · rw [hr]
      exact .inr (.inr (.inr ⟨hc, rfl, rfl, rfl, .inl hins⟩))
  · obtain ⟨_, _, _, herr, _⟩ := rxphase_frame o v (s.link i)
    exact .inl herr
  · rcases txphase_err_cases o v (s.link i) with hk | ⟨ht, ha, hc, hr⟩
    · exact .inl hk
    · rw [hr]
      exact .inr (.inr (.inr ⟨hc, rfl, rfl, rfl, .inr (.inl ⟨o, v, hins, ht, ha⟩)⟩))
  · rcases lstep_err_cases s.cfg v f (s.link i) with hk | hk | ⟨hlive, hn, ht, ha, hc, he, hcur, hq⟩
    · exact .inl hk
    · exact .inr (.inl hk)
    · exact .inr (.inr (.inr ⟨hc, he, hcur, hq, .inr (.inr ⟨v, f, hs, hlive, hn, ht, ha⟩)⟩))
  · exact .inl (ageupd_err ..)
  · exact .inr (.inl (lrst_err _))
  · exact .inr (.inl rfl)

end Sys2Proof.Machine
end

section
/-! PROOF. The obligations of 60_exceptions.md. -/

namespace Sys2Proof.Machine

/-- Settles O49: of the ways `exec_err_cases` names, the `ENQ` on a full queue alone arrives at `OVERRUN`. -/
theorem overrunOnlyByEnqueue : Obligations.OverrunOnlyByEnqueue := by
  unfold Obligations.OverrunOnlyByEnqueue
  intro s t i ins h hbefore hafter
  rcases exec_err_cases h i with hk | hk | hover | ⟨_, hk, _⟩
  · exact absurd (hk.symm.trans hafter) hbefore
  · simp [hk] at hafter
  · exact hover
  · simp [hk] at hafter

/-- Settles O50: of the ways `exec_err_cases` names, the dequeue on an empty queue alone arrives at `OUT_OF_SYNC`. -/
theorem outOfSyncOnlyByDequeue : Obligations.OutOfSyncOnlyByDequeue := by
  unfold Obligations.OutOfSyncOnlyByDequeue
  intro s t i ins h hbefore hafter
  rcases exec_err_cases h i with hk | hk | ⟨_, _, hr, _⟩ | ⟨hc, _, hcur, hq, hins⟩
  · exact absurd (hk.symm.trans hafter) hbefore
  · simp [hk] at hafter
  · simp [hr] at hafter
  · exact ⟨hc, hcur ▸ hc, hq, hins⟩

end Sys2Proof.Machine
end

section
/-! PROOF. What an idle, a reset and a stale link make of a sampled value, and the obligations of 70_reset_and_hazards.md. -/

namespace Sys2Proof.Machine

section
variable {p : Params} {v : U6} {f : Bit} {l : LinkState}

/-! ## An idle link -/

/-- Writing back the ack that a channel value has leaves the value. -/
@[simp] theorem withAck_ackOf (o : U6) : withAck o (ackOf o) = o := channelEncode_fields o

/-- R203, liveness aside, register by register. -/
theorem idle_iff :
    l.idle v = true ↔ l.err = .none ∧ l.cursor.val = 0 ∧ toggleOf l.out = toggleData ∧
      toggleOf v = ackOf l.out ∧ ackOf v = toggleOf l.out := by
  simp [LinkState.idle, LinkState.newHalf, LinkState.acked, inError_eq_false, and_assoc]

/-- With no new half and nothing to send, the phases leave the link as it was: the ack written is the one it has. -/
theorem phases_eq_self (hc : l.cursor.val = 0) (ht : toggleOf l.out = toggleData) (hold : toggleOf v = ackOf l.out) :
    l.phases p v = l := by
  rcases phases_cases p v l with ⟨_, e⟩ | ⟨_, _, hp, _⟩ | ⟨_, hk, _⟩ | ⟨_, hk, _⟩
  · rw [e, rxphase_of_old hold, hold, withAck_ackOf]
  · omega
  · rw [ht] at hk; cases hk
  · rw [ht] at hk; cases hk

/-- R203: on an idle live link the age alone changes. -/
theorem lstep_of_idle (hlive : l.liveWith p f) (hidle : l.idle v = true) :
    l.lstep p v f = { l with age := l.ageAfter p f } := by
  obtain ⟨hn, hc, ht, hold, _⟩ := idle_iff.1 hidle
  rw [lstep_of_live hn hlive, phases_eq_self (l := l.ageupd p f) hc ht hold, ageupd_eq]

/-! ## The value of a reset neighbour -/

/-- A value with ack 0 acknowledges no command half, so a step that samples it owes no data half and raises no error (R127). -/
theorem lstep_err_of_ack_zero (hn : l.err = .none) (ha : ackOf v = false) : (l.lstep p v f).err = .none := by
  rcases lstep_err_cases p v f l with h | h | ⟨_, _, _, hk, _⟩
  · rw [h, hn]
  · exact h
  · rw [ha] at hk; cases hk

/-- R212(a): after a command half, `0x00` is a new data half with value 0. -/
theorem lstep_of_reset_value (hn : l.err = .none) (hlive : l.liveWith p f) (ho : ackOf l.out = true) :
    (l.lstep p 0x00#6 f).lastCmd = l.lastCmd ∧
    (l.lstep p 0x00#6 f).rxState = (if l.lastCmd = cmdUpdateState then 0#4 else l.rxState) ∧
    ackOf (l.lstep p 0x00#6 f).out = false ∧ (l.lstep p 0x00#6 f).err = .none := by
  obtain ⟨_, hcmd, hrx⟩ := lstep_receive_side (v := 0x00#6) hn hlive
  have herr : (l.lstep p 0x00#6 f).err = .none := lstep_err_of_ack_zero hn ackOf_reset
  have hpayload : payloadOf 0x00#6 = 0#4 := rfl
  exact ⟨by simpa using hcmd, by simpa [ho, hpayload] using hrx, lstep_ack hlive herr, herr⟩

/-! ## A stale link -/

/-- A link with its cursor at 0 has no valid entry (R25). -/
theorem entries_of_cursor_zero (hc : l.cursor.val = 0) : l.entries = [] := by
  simp [LinkState.entries, hc]

/-- Whether a step finds a link live is a matter of its age alone (R150, R152). -/
theorem liveWith_congr {m : LinkState} (h : l.age = m.age) : l.liveWith p f ↔ m.liveWith p f := by
  rw [LinkState.liveWith, LinkState.liveWith, LinkState.ageAfter, LinkState.ageAfter, h]

/-- R131, R213: a stale step empties the queue, raises no error and presents `0x00`. -/
theorem lstep_discards_of_stale (h : ¬ l.liveWith p f) :
    (l.lstep p v f).entries = [] ∧ (l.lstep p v f).err = .none ∧ (l.lstep p v f).out = 0x00#6 := by
  rw [lstep_of_stale h]
  exact ⟨entries_of_cursor_zero rfl, rfl, rfl⟩

end

/-! ## The obligations -/

/-- Settles O37: `lstep_of_idle`. -/
theorem idleStepChangesOnlyAge : Obligations.IdleStepChangesOnlyAge := by
  unfold Obligations.IdleStepChangesOnlyAge
  intro s i v f hlive hidle
  obtain ⟨t, hexec, hframe, _, hlink⟩ := exec_lstep s i v f
  exact ⟨t, hexec, hframe, hlink.trans (lstep_of_idle hlive hidle)⟩

/-- Settles O54: `lstep_of_reset_value`, under `CMD_UPDATE_STATE`. -/
theorem resetNeighbourDeliversZero : Obligations.ResetNeighbourDeliversZero := by
  unfold Obligations.ResetNeighbourDeliversZero
  intro s i hp hn ho hcmd
  obtain ⟨t, hexec, hframe, _, hlink⟩ := exec_lstep s i 0x00#6 true
  obtain ⟨hkept, hrx, hack, herr⟩ := lstep_of_reset_value hn (liveWith_fresh hp _) ho
  rw [if_pos hcmd] at hrx
  refine ⟨t, hexec, hframe, ?_⟩
  rw [hlink]
  exact ⟨hrx, hack, herr, hkept.trans hcmd⟩

/-- Settles O55: after `LRST` the link meets the premises of O32 and O33 with ack 0, to which every command half is new and no data
half is. -/
theorem resetReceiverRepeatsOrLosesHalf : Obligations.ResetReceiverRepeatsOrLosesHalf := by
  unfold Obligations.ResetReceiverRepeatsOrLosesHalf
  intro s i a x hp
  obtain ⟨r, hlrst, ⟨_, hcfg, _⟩, _, hlink⟩ := exec_lrst s i
  have hn : (r.link i).err = .none := by rw [hlink, lrst_err]
  have hic : toggleOf (r.link i).out = toggleCommand → 1 ≤ (r.link i).cursor.val := by simp [hlink]
  rw [← hcfg] at hp
  rw [execAll_cons hlrst, execAll_cons hlrst, execAll_singleton, execAll_singleton]
  constructor
  · obtain ⟨_, hcase⟩ := halfCmdStoredAndAcknowledged r i a x
    obtain ⟨t, hexec, _, hcmd, hrx, hack, herr, _⟩ := hcase hp hn hic
    rw [hlink] at hcmd hrx
    exact ⟨t, hexec, by simpa using hcmd, hack, hrx, herr⟩
  · obtain ⟨_, hcase⟩ := halfDataDispatchedAndAcknowledged r i a x
    obtain ⟨t, hexec, _, hrx, hcmd, hack, herr, _⟩ := hcase hp hn hic
    rw [hlink] at hcmd hrx
    exact ⟨t, hexec, hcmd, by simpa using hrx, hack, herr, by rw [hack, toggleOf_channelEncode]⟩

/-- Settles O56: `ENQ` leaves the age, so the step that was to find the link stale still does, and `lstep_discards_of_stale`. -/
theorem staleLinkSwallowsWork : Obligations.StaleLinkSwallowsWork := by
  unfold Obligations.StaleLinkSwallowsWork
  intro s i c d v f hn hc hstale
  obtain ⟨t, henq, ⟨_, hcfg, _⟩, hresult, hlink⟩ := exec_enq s i c d
  obtain ⟨hok, _⟩ := enq_of_room hn hc ⟨c, d⟩
  obtain ⟨_, _, _, _, _, _, hage⟩ := enq_registers_of_room hn hc ⟨c, d⟩
  rw [← hlink] at hage
  rw [← liveWith_congr hage, ← hcfg] at hstale
  obtain ⟨u, hstep, _, _, hlink'⟩ := exec_lstep t i v f
  refine ⟨t, u, henq, by rw [hresult, hok], hstep, ?_⟩
  rw [hlink']
  exact lstep_discards_of_stale hstale

end Sys2Proof.Machine
end

section
/-! PROOF. The channel codec in numbers, and the obligations of 40_codec.md. -/

namespace Sys2Proof.Machine

/-! ## The fields of a channel value in numbers -/

/-- The three fields stand side by side, so the appended bits are a sum (R90). -/
theorem channelEncode_toNat (a t : Bit) (p : U4) : (channelEncode a t p).toNat = 32 * a.toNat + 16 * t.toNat + p.toNat := by
  rw [channelEncode, BitVec.toNat_append, ← Nat.shiftLeft_add_eq_or_of_lt p.isLt, BitVec.toNat_append,
    ← Nat.shiftLeft_add_eq_or_of_lt (BitVec.isLt _), BitVec.toNat_ofBool, BitVec.toNat_ofBool, Nat.shiftLeft_eq, Nat.shiftLeft_eq]
  omega

/-- Bit 5 is the top bit: nothing is left above it. -/
theorem ackOf_toNat (v : U6) : (ackOf v).toNat = v.toNat / 32 := by
  have hv := v.isLt
  rw [ackOf, BitVec.getLsbD, Nat.toNat_testBit]
  omega

theorem toggleOf_toNat (v : U6) : (toggleOf v).toNat = v.toNat / 16 % 2 := by
  rw [toggleOf, BitVec.getLsbD, Nat.toNat_testBit]

theorem payloadOf_toNat (v : U6) : (payloadOf v).toNat = v.toNat % 16 := by
  rw [payloadOf, BitVec.extractLsb'_toNat, Nat.shiftRight_zero]

/-- A number that is the sum of three weighted fields is the channel value that packs them. -/
theorem toNat_eq_fields_iff (v : U6) (a t : Bit) (p : U4) :
    v.toNat = 32 * a.toNat + 16 * t.toNat + p.toNat ↔ v = channelEncode a t p := by
  rw [← channelEncode_toNat, BitVec.toNat_inj]

/-! ## Packing and splitting are inverse -/

@[simp] theorem channelDecode_channelEncode (a t : Bit) (p : U4) : channelDecode (channelEncode a t p) = (a, t, p) := by
  simp [channelDecode]

/-- The fields that a channel value packs are those it splits into, and no others. -/
theorem eq_channelEncode_iff (v : U6) (x : Bit × Bit × U4) : v = channelEncode x.1 x.2.1 x.2.2 ↔ x = channelDecode v := by
  constructor
  · rintro rfl
    exact (channelDecode_channelEncode ..).symm
  · rintro rfl
    exact (channelEncode_fields v).symm

/-! ## The obligations -/

/-- Settles O3: `decode_encode`, which goes through the instructions port by port. -/
theorem decodeOfEncode : Obligations.DecodeOfEncode := decode_encode

/-- Settles O1: the rows of the codec only answer; what they answer is read in numbers field by field, and the fields of a value are
its `DECODE` alone (`eq_channelEncode_iff`). -/
theorem codecPacksAndSplitsFields : Obligations.CodecPacksAndSplitsFields := by
  unfold Obligations.CodecPacksAndSplitsFields
  refine ⟨fun a t p s => ?_, fun v => ?_, fun v s => ?_⟩
  · exact ⟨channelEncode a t p, rfl, channelEncode_toNat a t p⟩
  · simp only [toNat_eq_fields_iff, eq_channelEncode_iff]
    exact existsUnique_eq
  · exact ⟨ackOf v, toggleOf v, payloadOf v, rfl, ackOf_toNat v, toggleOf_toNat v, payloadOf_toNat v⟩

end Sys2Proof.Machine
end
